-- ==== Sys2Proof/Word.lean ====
section
/-! DEFINITION. The words of the machine and the enumerations that its encodings name. -/

namespace Sys2Proof

/-- A scalar register, an address, a program counter (R13). -/
abbrev Word := BitVec 64

/-- One byte of memory (R6). -/
abbrev Byte := BitVec 8

/-- One register-space row of 128 bytes, byte 0 in bits [7:0] (R20, R6). -/
abbrev Row := BitVec 1024

/-- An instruction word (R68). -/
abbrev InstrWord := BitVec 32

/-- A template (R90). -/
abbrev Template := BitVec 128

/-- The four engines that an engine word names (R86). -/
inductive Engine where
  | vec | mat | cpy | smp
  deriving DecidableEq, Repr

/-- The element types of a view row (R93). -/
inductive EType where
  | f32 | bf16 | f16 | i32 | n32 | i16 | i8 | n8
  deriving DecidableEq, Repr

/-- The rounding modes (R46). -/
inductive RMode where
  | rne | rtz | rup | rdn | rsto
  deriving DecidableEq, Repr

/-- A number as the formats of 02 hold it: NaN, an infinity, a signed zero, or ±m·2^e exactly (R39). -/
inductive Fp where
  | nan
  | inf (neg : Bool)
  | zero (neg : Bool)
  | fin (neg : Bool) (m : Nat) (e : Int)
  deriving DecidableEq, Repr

/-- Sign-extension to 64 bits (R72–R75). -/
abbrev sext64 {n : Nat} (v : BitVec n) : Word := v.signExtend 64

/-- Zero-extension to 64 bits. -/
abbrev zext64 {n : Nat} (v : BitVec n) : Word := v.setWidth 64

/-- 1 for true, 0 for false, as a compare writes it (R121). -/
abbrev boolWord (b : Bool) : Word := if b then 1 else 0

end Sys2Proof
end

