-- ==== Sys2Proof/Config.lean ====
section
/-! DEFINITION. What an implementation fixes and what the spec leaves open: constants without a body, so that nothing
can be proved of their values. -/

namespace Sys2Proof.Config
open Sys2Proof

/-- Latency beyond the least, in clk, of the variable-latency access or action with this stamp (R31, R119, R444;
log 4, DESIGN CHOICE). -/
opaque latency : Nat → Nat

/-- Latency of a division by its operands, taken modulo 29 above 6 (R119; log 4, DESIGN CHOICE). -/
opaque divLatency : Word → Word → Nat

/-- Which of the results within the bound of R168 the f32 sfu gives: by operation and input (log 6, DESIGN CHOICE). -/
opaque sfuPick : Nat → BitVec 32 → Nat

/-- An open choice among outcomes that the spec lists or leaves free: handles, group ids, slots, R298 (log 13, DESIGN
CHOICE). -/
opaque choice : Nat → Nat

/-- The entry that a full TLB or hub replaces (R444; log 9, DESIGN CHOICE). -/
opaque victim : Nat → Nat

/-- The tile entries that the dynamic scheduler allocates for the dispatch with a stamp: tile, whether accumulator, BASE and SIZE in
64-byte units (R222, R393; log 54, DESIGN CHOICE). -/
opaque allocation : Nat → List (Nat × Bool × Nat × Nat)

/-- FP64 code of a weight cell that R201 leaves undefined after a fault: by stamp and cell (log 16, DESIGN CHOICE). -/
opaque undefWeight : Nat → Nat → Word

/-- Whether a parity increment recovers a damaged flit (R485), by stamp (log 19, DESIGN CHOICE). -/
opaque parityRecovers : Nat → Bool

/-- The fuses of a die: identity seed, digest of the vendor's public key, rollback counter (R495, R496; log 12, PRESUMED). -/
opaque identitySeed : Nat → BitVec 256
opaque vendorKeyDigest : BitVec 256
opaque rollback : Nat → BitVec 32

/-- ML-DSA-44 (R3, R495, R496; log 12, PRESUMED): a signature with the identity key of a seed over a digest, and the
verification of a signature over a digest with a public key. -/
opaque mldsaSign : BitVec 256 → BitVec 256 → List Byte
opaque mldsaVerify : List Byte → BitVec 256 → List Byte → Bool

end Sys2Proof.Config
end

