-- ==== Sys2Proof/Syntax.lean ====
section
/-! DEFINITION. The syntax: one constructor of Instr for each row of the opcode table. -/

namespace Sys2Proof

/-- One trigger move of a vector word with every source already read (R156): what stands on the ports of its unit
(R158) and where its result goes. -/
structure VTrig where
  /-- address of the vector word -/
  pc : Word
  /-- latch number of the unit, 0 alu0 to 7 mem (R24) -/
  unit : Nat
  /-- ETYPE of the template (R93) -/
  ety : EType
  /-- enabled lanes (R161): all ones when MASK = 0 -/
  mask : BitVec 128
  /-- rows on the ports a, b and c, and of the trigger's source t -/
  a : Row
  b : Row
  c : Row
  t : Row
  /-- the same operands as single 64-bit values (R159) -/
  a64 : Word
  b64 : Word
  c64 : Word
  t64 : Word
  /-- register-space row of t when t is a view row -/
  trow : Option Nat
  /-- register-space row of the destination -/
  drow : Nat
  /-- element type of the destination view -/
  dety : EType
  /-- NW: the result goes to the latch only -/
  nw : Bool
  deriving DecidableEq, Repr

/-- One constructor for each row of spec/opcode_table.json. A row with a 32-bit encoding takes its word's fields;
a matrix, copy or sampling opcode takes the fields of its template. A trigger of a vector word finds its operands on
the ports of its unit, and a step that the machine takes by itself finds its subject in State (State.cur). -/
inductive Instr where
  /-- ADD (R121). Writes xa plus the second operand, modulo 2^64, to xd. -/
  | add (d : BitVec 6) (a : BitVec 6) (b : BitVec 6) (k : Bool)
  /-- SUB (R121). Writes xa minus the second operand, modulo 2^64, to xd. -/
  | sub (d : BitVec 6) (a : BitVec 6) (b : BitVec 6) (k : Bool)
  /-- MUL (R121). Writes the low 64 bits of the product to xd. -/
  | mul (d : BitVec 6) (a : BitVec 6) (b : BitVec 6) (k : Bool)
  /-- MULH (R121). Writes the high 64 bits of the signed product to xd. -/
  | mulh (d : BitVec 6) (a : BitVec 6) (b : BitVec 6) (k : Bool)
  /-- MULHN (R121). Writes the high 64 bits of the natural product to xd. -/
  | mulhn (d : BitVec 6) (a : BitVec 6) (b : BitVec 6) (k : Bool)
  /-- DIV (R121). Signed division truncated toward zero, with defined results for division by zero and overflow. -/
  | div (d : BitVec 6) (a : BitVec 6) (b : BitVec 6) (k : Bool)
  /-- DIVN (R121). Natural division, giving all ones on division by zero. -/
  | divn (d : BitVec 6) (a : BitVec 6) (b : BitVec 6) (k : Bool)
  /-- REM (R121). Signed remainder, which takes the sign of the dividend. -/
  | rem (d : BitVec 6) (a : BitVec 6) (b : BitVec 6) (k : Bool)
  /-- REMN (R121). Natural remainder, giving xa on division by zero. -/
  | remn (d : BitVec 6) (a : BitVec 6) (b : BitVec 6) (k : Bool)
  /-- AND (R121). Bitwise AND. -/
  | and (d : BitVec 6) (a : BitVec 6) (b : BitVec 6) (k : Bool)
  /-- OR (R121). Bitwise OR. -/
  | or (d : BitVec 6) (a : BitVec 6) (b : BitVec 6) (k : Bool)
  /-- XOR (R121). Bitwise XOR. -/
  | xor (d : BitVec 6) (a : BitVec 6) (b : BitVec 6) (k : Bool)
  /-- ANDN (R121). xa AND the complement of the second operand. -/
  | andn (d : BitVec 6) (a : BitVec 6) (b : BitVec 6) (k : Bool)
  /-- ORN (R121). xa OR the complement of the second operand. -/
  | orn (d : BitVec 6) (a : BitVec 6) (b : BitVec 6) (k : Bool)
  /-- SHL (R121). Logical left shift by b[5:0]. -/
  | shl (d : BitVec 6) (a : BitVec 6) (b : BitVec 6) (k : Bool)
  /-- SHR (R121). Logical right shift by b[5:0]. -/
  | shr (d : BitVec 6) (a : BitVec 6) (b : BitVec 6) (k : Bool)
  /-- SHRA (R121). Arithmetic right shift by b[5:0]. -/
  | shra (d : BitVec 6) (a : BitVec 6) (b : BitVec 6) (k : Bool)
  /-- ROTL (R121). Rotate left by b[5:0]. -/
  | rotl (d : BitVec 6) (a : BitVec 6) (b : BitVec 6) (k : Bool)
  /-- ROTR (R121). Rotate right by b[5:0]. -/
  | rotr (d : BitVec 6) (a : BitVec 6) (b : BitVec 6) (k : Bool)
  /-- MIN (R121). Signed minimum. -/
  | min (d : BitVec 6) (a : BitVec 6) (b : BitVec 6) (k : Bool)
  /-- MAX (R121). Signed maximum. -/
  | max (d : BitVec 6) (a : BitVec 6) (b : BitVec 6) (k : Bool)
  /-- MINN (R121). Natural minimum. -/
  | minn (d : BitVec 6) (a : BitVec 6) (b : BitVec 6) (k : Bool)
  /-- MAXN (R121). Natural maximum. -/
  | maxn (d : BitVec 6) (a : BitVec 6) (b : BitVec 6) (k : Bool)
  /-- CMPEQ (R121). Writes 1 if the operands are equal, else 0. -/
  | cmpeq (d : BitVec 6) (a : BitVec 6) (b : BitVec 6) (k : Bool)
  /-- CMPNE (R121). Writes 1 if the operands differ, else 0. -/
  | cmpne (d : BitVec 6) (a : BitVec 6) (b : BitVec 6) (k : Bool)
  /-- CMPLT (R121). Signed less-than comparison. -/
  | cmplt (d : BitVec 6) (a : BitVec 6) (b : BitVec 6) (k : Bool)
  /-- CMPLE (R121). Signed less-or-equal comparison. -/
  | cmple (d : BitVec 6) (a : BitVec 6) (b : BitVec 6) (k : Bool)
  /-- CMPLTN (R121). Natural less-than comparison. -/
  | cmpltn (d : BitVec 6) (a : BitVec 6) (b : BitVec 6) (k : Bool)
  /-- CMPLEN (R121). Natural less-or-equal comparison. -/
  | cmplen (d : BitVec 6) (a : BitVec 6) (b : BitVec 6) (k : Bool)
  /-- SEL (R121). Writes xa if the old xd is nonzero, else the second operand. -/
  | sel (d : BitVec 6) (a : BitVec 6) (b : BitVec 6) (k : Bool)
  /-- CLZ (R121). Counts the leading zeros of xa. -/
  | clz (d : BitVec 6) (a : BitVec 6)
  /-- CTZ (R121). Counts the trailing zeros of xa. -/
  | ctz (d : BitVec 6) (a : BitVec 6)
  /-- POPC (R121). Counts the set bits of xa. -/
  | popc (d : BitVec 6) (a : BitVec 6)
  /-- BREV (R121). Reverses the 64 bits of xa. -/
  | brev (d : BitVec 6) (a : BitVec 6)
  /-- BSWP (R121). Reverses the 8 bytes of xa. -/
  | bswp (d : BitVec 6) (a : BitVec 6)
  /-- SEXT (R121). Sign-extends the low 8, 16 or 32 bits of xa. -/
  | sext (d : BitVec 6) (a : BitVec 6) (w : BitVec 3)
  /-- ZEXT (R121). Zero-extends the low 8, 16 or 32 bits of xa. -/
  | zext (d : BitVec 6) (a : BitVec 6) (w : BitVec 3)
  /-- BFX (R121). Extracts a bit field described by the second operand. -/
  | bfx (d : BitVec 6) (a : BitVec 6) (b : BitVec 6) (k : Bool)
  /-- BFI (R121). Inserts low bits of xa into a field of xd. -/
  | bfi (d : BitVec 6) (a : BitVec 6) (b : BitVec 6) (k : Bool)
  /-- ADDSH (R121). Adds the second operand, shifted left by 0 to 7, to xa. -/
  | addsh (d : BitVec 6) (a : BitVec 6) (b : BitVec 6) (k : Bool) (s : BitVec 3)
  /-- MADD (R121). Adds the low product of xa and the second operand to xd. -/
  | madd (d : BitVec 6) (a : BitVec 6) (b : BitVec 6) (k : Bool)
  /-- ABSD (R121). Writes the exact absolute difference of the signed operands. -/
  | absd (d : BitVec 6) (a : BitVec 6) (b : BitVec 6) (k : Bool)
  /-- ADDI (R123). Adds the sign-extended immediate. -/
  | addi (d : BitVec 6) (a : BitVec 6) (i : BitVec 10)
  /-- MULI (R123). Multiplies by the sign-extended immediate, keeping the low 64 bits. -/
  | muli (d : BitVec 6) (a : BitVec 6) (i : BitVec 10)
  /-- ANDI (R123). AND with the immediate. -/
  | andi (d : BitVec 6) (a : BitVec 6) (i : BitVec 10)
  /-- ORI (R123). OR with the immediate. -/
  | ori (d : BitVec 6) (a : BitVec 6) (i : BitVec 10)
  /-- XORI (R123). XOR with the immediate. -/
  | xori (d : BitVec 6) (a : BitVec 6) (i : BitVec 10)
  /-- SHLI (R123). Shifts left by an immediate count. -/
  | shli (d : BitVec 6) (a : BitVec 6) (c : BitVec 6)
  /-- SHRI (R123). Shifts right logically by an immediate count. -/
  | shri (d : BitVec 6) (a : BitVec 6) (c : BitVec 6)
  /-- SHRAI (R123). Shifts right arithmetically by an immediate count. -/
  | shrai (d : BitVec 6) (a : BitVec 6) (c : BitVec 6)
  /-- ROTLI (R123). Rotates left by an immediate count. -/
  | rotli (d : BitVec 6) (a : BitVec 6) (c : BitVec 6)
  /-- CMPEQI (R123). Compares xa with the immediate for equality. -/
  | cmpeqi (d : BitVec 6) (a : BitVec 6) (i : BitVec 10)
  /-- CMPLTI (R123). Signed less-than comparison against the immediate. -/
  | cmplti (d : BitVec 6) (a : BitVec 6) (i : BitVec 10)
  /-- CMPLTNI (R123). Natural less-than comparison against the sign-extended immediate. -/
  | cmpltni (d : BitVec 6) (a : BitVec 6) (i : BitVec 10)
  /-- MINI (R123). Signed minimum with the immediate. -/
  | mini (d : BitVec 6) (a : BitVec 6) (i : BitVec 10)
  /-- MAXI (R123). Signed maximum with the immediate. -/
  | maxi (d : BitVec 6) (a : BitVec 6) (i : BitVec 10)
  /-- MOVI (R73). Writes imm16 into halfword h and zeroes the other bits. -/
  | movi (h : BitVec 2) (d : BitVec 6) (i : BitVec 16)
  /-- MOVK (R73). Writes imm16 into halfword h and keeps the other bits. -/
  | movk (h : BitVec 2) (d : BitVec 6) (i : BitVec 16)
  /-- MOVN (R73). Writes the complement of imm16 placed in halfword h. -/
  | movn (h : BitVec 2) (d : BitVec 6) (i : BitVec 16)
  /-- LDB (R126). Loads a byte, zero-extended. -/
  | ldb (o : BitVec 4) (d : BitVec 6) (a : BitVec 6) (f : BitVec 8)
  /-- LDH (R126). Loads a halfword, zero-extended. -/
  | ldh (o : BitVec 4) (d : BitVec 6) (a : BitVec 6) (f : BitVec 8)
  /-- LDW (R126). Loads a word, zero-extended. -/
  | ldw (o : BitVec 4) (d : BitVec 6) (a : BitVec 6) (f : BitVec 8)
  /-- LDD (R126). Loads a doubleword. -/
  | ldd (o : BitVec 4) (d : BitVec 6) (a : BitVec 6) (f : BitVec 8)
  /-- LDBS (R126). Loads a byte, sign-extended. -/
  | ldbs (o : BitVec 4) (d : BitVec 6) (a : BitVec 6) (f : BitVec 8)
  /-- LDHS (R126). Loads a halfword, sign-extended. -/
  | ldhs (o : BitVec 4) (d : BitVec 6) (a : BitVec 6) (f : BitVec 8)
  /-- LDWS (R126). Loads a word, sign-extended. -/
  | ldws (o : BitVec 4) (d : BitVec 6) (a : BitVec 6) (f : BitVec 8)
  /-- STB (R126). Stores a byte. -/
  | stb (o : BitVec 4) (s : BitVec 6) (a : BitVec 6) (f : BitVec 8)
  /-- STH (R126). Stores a halfword. -/
  | sth (o : BitVec 4) (s : BitVec 6) (a : BitVec 6) (f : BitVec 8)
  /-- STW (R126). Stores a word. -/
  | stw (o : BitVec 4) (s : BitVec 6) (a : BitVec 6) (f : BitVec 8)
  /-- STD (R126). Stores a doubleword. -/
  | std (o : BitVec 4) (s : BitVec 6) (a : BitVec 6) (f : BitVec 8)
  /-- PREF (R129). Prefetches a 64-byte line, changing no architected state and never faulting. -/
  | pref (o : BitVec 4) (a : BitVec 6) (f : BitVec 8)
  /-- BZ (R130). Branches when xa is zero. -/
  | bz (a : BitVec 6) (f : BitVec 18)
  /-- BNZ (R130). Branches when xa is nonzero. -/
  | bnz (a : BitVec 6) (f : BitVec 18)
  /-- BLTZ (R130). Branches when xa is negative. -/
  | bltz (a : BitVec 6) (f : BitVec 18)
  /-- BGEZ (R130). Branches when xa is non-negative. -/
  | bgez (a : BitVec 6) (f : BitVec 18)
  /-- JMP (R130). Jumps PC-relative. -/
  | jmp (f : BitVec 18)
  /-- JAL (R130). Writes the return address to x63 and jumps. -/
  | jal (f : BitVec 18)
  /-- JR (R130). Jumps to xa, faulting on a misaligned target. -/
  | jr (a : BitVec 6)
  /-- LOOP (R131). Opens a hardware loop with a count from xa, or skips the body for a count of zero. -/
  | loop (a : BitVec 6) (e : BitVec 18)
  /-- LOOPI (R131). Opens a hardware loop with an immediate count. -/
  | loopi (c : BitVec 12) (e : BitVec 12)
  /-- ENDL (R132). Closes an iteration: branches back to the loop top or pops the loop entry. -/
  | endl
  /-- BRKL (R133). Leaves the innermost loop early and pops its entry. -/
  | brkl
  /-- AMADD (R260). Atomic add at the home sync engine, returning the old value. -/
  | amadd (d : BitVec 6) (a : BitVec 6) (b : BitVec 6) (g : BitVec 5)
  /-- AMFADD (R260). Atomic FP32 add with RNE, returning the old value. -/
  | amfadd (d : BitVec 6) (a : BitVec 6) (b : BitVec 6) (g : BitVec 5)
  /-- AMMIN (R260). Atomic signed minimum. -/
  | ammin (d : BitVec 6) (a : BitVec 6) (b : BitVec 6) (g : BitVec 5)
  /-- AMMAX (R260). Atomic signed maximum. -/
  | ammax (d : BitVec 6) (a : BitVec 6) (b : BitVec 6) (g : BitVec 5)
  /-- AMMINN (R260). Atomic natural minimum. -/
  | amminn (d : BitVec 6) (a : BitVec 6) (b : BitVec 6) (g : BitVec 5)
  /-- AMMAXN (R260). Atomic natural maximum. -/
  | ammaxn (d : BitVec 6) (a : BitVec 6) (b : BitVec 6) (g : BitVec 5)
  /-- AMAND (R260). Atomic AND. -/
  | amand (d : BitVec 6) (a : BitVec 6) (b : BitVec 6) (g : BitVec 5)
  /-- AMOR (R260). Atomic OR. -/
  | amor (d : BitVec 6) (a : BitVec 6) (b : BitVec 6) (g : BitVec 5)
  /-- AMXOR (R260). Atomic XOR. -/
  | amxor (d : BitVec 6) (a : BitVec 6) (b : BitVec 6) (g : BitVec 5)
  /-- AMXCH (R260). Atomic exchange. -/
  | amxch (d : BitVec 6) (a : BitVec 6) (b : BitVec 6) (g : BitVec 5)
  /-- AMCAS (R260). Atomic compare-and-swap against the old xd. -/
  | amcas (d : BitVec 6) (a : BitVec 6) (b : BitVec 6) (g : BitVec 5)
  /-- AMINCB (R260). Atomic increment bounded by b. -/
  | amincb (d : BitVec 6) (a : BitVec 6) (b : BitVec 6) (g : BitVec 5)
  /-- LDA (R264). Load-acquire of 8 bytes at a scope. -/
  | lda (d : BitVec 6) (a : BitVec 6) (g : BitVec 5)
  /-- STRL (R264). Store-release of 8 bytes at a scope. -/
  | strl (a : BitVec 6) (b : BitVec 6) (g : BitVec 5)
  /-- WAITA (R265). Waits until a watched word differs from b, or until a timeout. -/
  | waita (d : BitVec 6) (a : BitVec 6) (b : BitVec 6) (g : BitVec 5)
  /-- FTSET (R267). Fills a future or hands the value to a waiter; refused when the future is full. -/
  | ftset (d : BitVec 6) (a : BitVec 6) (b : BitVec 6) (g : BitVec 5)
  /-- FTSETW (R267). As FTSET, but queues and waits while the future is full. -/
  | ftsetw (d : BitVec 6) (a : BitVec 6) (b : BitVec 6) (g : BitVec 5)
  /-- FTGET (R268). Consumes a full future, or queues for the next value. -/
  | ftget (d : BitVec 6) (a : BitVec 6) (g : BitVec 5)
  /-- FTTRY (R268). Consumes a full future without waiting, writing a status to xb. -/
  | fttry (d : BitVec 6) (a : BitVec 6) (b : BitVec 6) (g : BitVec 5)
  /-- PHNEW (R274). Creates or resets a phaser line, with an optional creator membership. -/
  | phnew (d : BitVec 6) (a : BitVec 6) (b : BitVec 6)
  /-- PHREG (R275). Registers members from the next phase boundary on. -/
  | phreg (d : BitVec 6) (a : BitVec 6) (b : BitVec 6)
  /-- PHDROP (R275). Drops members from the next phase boundary on. -/
  | phdrop (d : BitVec 6) (a : BitVec 6) (b : BitVec 6)
  /-- PHARV (R277). Member arrival with a byte count in the open phase. -/
  | pharv (d : BitVec 6) (a : BitVec 6) (b : BitVec 6) (g : BitVec 5)
  /-- PHWAIT (R277). Waits until a given phase has completed. -/
  | phwait (d : BitVec 6) (a : BitVec 6) (b : BitVec 6) (g : BitVec 5)
  /-- PHARW (R277). Arrives, then waits for the phase it arrived in. -/
  | pharw (d : BitVec 6) (a : BitVec 6) (b : BitVec 6) (g : BitVec 5)
  /-- PHBYT (R276). Sets the expected bytes per phase, at once or from the next boundary. -/
  | phbyt (d : BitVec 6) (a : BitVec 6) (b : BitVec 6)
  /-- BRBASE (R278). Sets or clears the slot's rotating-barrier binding. -/
  | brbase (d : BitVec 6) (a : BitVec 6) (b : BitVec 6)
  /-- BRADV (R278). Advances the rotating-barrier iteration count. -/
  | bradv (d : BitVec 6)
  /-- BRCMP (R280). Arrives at a compatibility barrier slot, and optionally waits on it. -/
  | brcmp (d : BitVec 6) (a : BitVec 6) (b : BitVec 6) (g : BitVec 5)
  /-- RCSNAP (R282). Atomically snapshots and clears a routing-counter array, then writes it to memory. -/
  | rcsnap (d : BitVec 6) (a : BitVec 6) (b : BitVec 6) (g : BitVec 5)
  /-- RCINC (R281). Adds to a routing counter, saturating. -/
  | rcinc (d : BitVec 6) (a : BitVec 6) (b : BitVec 6)
  /-- AMRED (R262). Adds up to 32 FP32 lanes atomically into memory, lane by lane. -/
  | amred (d : BitVec 6) (a : BitVec 6) (b : BitVec 6) (g : BitVec 5)
  /-- FENCEC (R293). Blocks until earlier accesses in the named classes have performed. -/
  | fencec (m : BitVec 16)
  /-- FENCEX (R294). Orders accesses across the named paths. -/
  | fencex (p : BitVec 5)
  /-- FENCES (R295). Acts as a release followed by an acquire at a scope group. -/
  | fences (g : BitVec 5)
  /-- FENCEF (R347). Drains a window and waits for its writes, then writes a flag through it. -/
  | fencef (w : BitVec 6) (a : BitVec 6) (b : BitVec 6)
  /-- WINSET (R343). Drains a window, checks a descriptor's routes and installs the descriptor. -/
  | winset (w : BitVec 6) (a : BitVec 6)
  /-- WINRT (R344). Replaces one route of a window after checking it. -/
  | winrt (w : BitVec 6) (a : BitVec 6) (i : BitVec 2)
  /-- WALLOW (R345). Reads, and optionally sets, a window's sluice allowance. -/
  | wallow (w : BitVec 6) (d : BitVec 6) (a : BitVec 6)
  /-- WINQ (R346). Reads a window's status. -/
  | winq (w : BitVec 6) (d : BitVec 6)
  /-- TOPORD (R333). Reads one word of the topology map. -/
  | topord (d : BitVec 6) (a : BitVec 6)
  /-- RTCHK (R334). Checks a route against the rules and the current map, returning a reason word. -/
  | rtchk (d : BitVec 6) (a : BitVec 6) (b : BitVec 6)
  /-- TRAP (R137). Raises a software trap, cause 0x12. -/
  | trap (c : BitVec 10)
  /-- SYSC (R137). Raises a system call, cause 0x13. -/
  | sysc (c : BitVec 10)
  /-- ERET (R138). Returns from a trap, restoring the mode; the landing record lands afterwards. -/
  | eret
  /-- CSRRD (R139). Reads a control register. -/
  | csrrd (d : BitVec 6) (n : BitVec 10)
  /-- CSRWR (R139). Writes a control register. -/
  | csrwr (a : BitVec 6) (n : BitVec 10)
  /-- CSRSET (R139). Sets masked bits of a control register. -/
  | csrset (a : BitVec 6) (n : BitVec 10)
  /-- CSRCLR (R139). Clears masked bits of a control register. -/
  | csrclr (a : BitVec 6) (n : BitVec 10)
  /-- NOP (R140). Has no effect. -/
  | nop
  /-- IDLE (R140). Yields, then blocks the slot for a number of clk. -/
  | idle (a : BitVec 6)
  /-- YIELD (R140). Makes the active slot READY, letting the core switch slots. -/
  | yield
  /-- PARK (R141). Yields and parks the slot until a future is full. -/
  | park (a : BitVec 6)
  /-- EXIT (R142). Ends the thread: lands its landing record, leaves its groups and frees the slot. -/
  | exit
  /-- SPAWN (R143). Creates a thread from a task record on a FREE slot chosen by the dispatcher. -/
  | spawn (d : BitVec 6) (a : BitVec 6) (n : BitVec 1)
  /-- JOIN (R144). Creates a group or joins an existing one. -/
  | join (d : BitVec 6) (a : BitVec 6) (c : BitVec 1)
  /-- LEAVE (R145). Leaves a group, which dissolves when empty. -/
  | leave (d : BitVec 6) (a : BitVec 6)
  /-- GRPQ (R146). Queries a group's members, rank or cores. -/
  | grpq (d : BitVec 6) (a : BitVec 6) (q : BitVec 10)
  /-- THID (R147). Returns the thread id, coordinates, core or ASID. -/
  | thid (d : BitVec 6) (q : BitVec 10)
  /-- LIDX (R135). Reads the iteration index of a loop level. -/
  | lidx (d : BitVec 6) (l : BitVec 10)
  /-- TLBINV (R148). Invalidates entries of the core's TLB. -/
  | tlbinv (a : BitVec 6) (q : BitVec 10)
  /-- CTXSW (R448). Starts a context switch of a core from a switch descriptor. -/
  | ctxsw (d : BitVec 6) (a : BitVec 6)
  /-- BRKP (R137). Raises a breakpoint trap that returns to itself. -/
  | brkp (c : BitVec 10)
  /-- TKPUSH (R357). Installs a task record in the own wellhead, or pushes it to a remote die through a window. -/
  | tkpush (d : BitVec 6) (a : BitVec 6) (b : BitVec 6) (r : BitVec 1)
  /-- TKPOP (R358). Takes the older prefetched task and jumps to its entry. -/
  | tkpop (d : BitVec 6) (w : BitVec 1)
  /-- TKDONE (R359). Completes the slot's task and releases its successors. -/
  | tkdone (d : BitVec 6)
  /-- TKPEEK (R360). Reads prefetch or queue counts without waiting. -/
  | tkpeek (d : BitVec 6) (a : BitVec 6) (q : BitVec 4)
  /-- JCNT (R361). Snapshots the four job counters. -/
  | jcnt (d : BitVec 6) (a : BitVec 6) (b : BitVec 6)
  /-- RNGGET (R363). Grants a chunk of a shared range by guided self-scheduling. -/
  | rngget (d : BitVec 6) (a : BitVec 6) (b : BitVec 6)
  /-- SCHNXT (R364). Steps a static schedule table in the cistern. -/
  | schnxt (d : BitVec 6) (a : BitVec 6)
  /-- DLSET (R365). Arms or disarms a deadline-class counter. -/
  | dlset (d : BitVec 6) (a : BitVec 6) (b : BitVec 6) (s : BitVec 1)
  /-- DLCHK (R365). Reads a deadline counter and its expiry flag. -/
  | dlchk (d : BitVec 6) (a : BitVec 6)
  /-- GRDSHP (R403). Shape guard: files or compares a shape value. -/
  | grdshp (d : BitVec 6) (a : BitVec 6) (t : BitVec 4)
  /-- GRDVAL (R403). Value guard: files or compares a branch value. -/
  | grdval (d : BitVec 6) (a : BitVec 6) (t : BitVec 4)
  /-- GRDHLTH (R403). Health guard over a masked health word. -/
  | grdhlth (d : BitVec 6) (a : BitVec 6)
  /-- RECMRK (R403). Records a mark that is never compared. -/
  | recmrk (d : BitVec 6) (a : BitVec 6)
  /-- CTKSET (R405). Sets or clears a cancellation token on every die of the gang. -/
  | ctkset (d : BitVec 6) (a : BitVec 6) (c : BitVec 1)
  /-- CTKCHK (R405). Tests whether a token is set. -/
  | ctkchk (d : BitVec 6) (a : BitVec 6)
  /-- LFWD (R420). Broadcasts a forward layer macro to the group's cores. -/
  | lfwd (d : BitVec 6) (a : BitVec 6) (b : BitVec 6)
  /-- LDGR (R420). Broadcasts a data-gradient layer macro. -/
  | ldgr (d : BitVec 6) (a : BitVec 6) (b : BitVec 6)
  /-- LWGR (R420). Broadcasts a weight-gradient layer macro. -/
  | lwgr (d : BitVec 6) (a : BitVec 6) (b : BitVec 6)
  /-- LUPD (R420). Broadcasts a weight-update layer macro. -/
  | lupd (d : BitVec 6) (a : BitVec 6) (b : BitVec 6)
  /-- MCLD (R424). Loads micro-operations into the microcode store. -/
  | mcld (d : BitVec 6) (a : BitVec 6) (b : BitVec 6)
  /-- MCSTAT (R425). Reads MC.STAT or one microcode entry. -/
  | mcstat (d : BitVec 6) (a : BitVec 6) (q : BitVec 4)
  /-- VX (R87). Patch word that issues an amended copy of a vector template, executing it in the issue clk. -/
  | vx (idx : BitVec 6) (sel : BitVec 6) (val : BitVec 16)
  /-- MX (R87). Patch word that places an amended matrix template in the matrix queue. -/
  | mx (idx : BitVec 6) (sel : BitVec 6) (val : BitVec 16)
  /-- CX (R235). Patch word that issues an amended copy template, reading its descriptor at issue. -/
  | cx (idx : BitVec 6) (sel : BitVec 6) (val : BitVec 16)
  /-- SX (R87). Patch word that places an amended sampling template in its queue. -/
  | sx (idx : BitVec 6) (sel : BitVec 6) (val : BitVec 16)
  /-- ECMD (R152). Issues a template with pairs A and B replaced from registers. -/
  | ecmd (e : Engine) (a : BitVec 6) (b : BitVec 6) (i : BitVec 6)
  /-- TPLLD (R153). Loads a template from memory, with variable latency. -/
  | tplld (e : Engine) (a : BitVec 6) (i : BitVec 6)
  /-- TPLRD (R154). Stores a template to memory. -/
  | tplrd (e : Engine) (a : BitVec 6) (i : BitVec 6)
  /-- EFENCE (R155). Blocks until the engine's queue is empty. -/
  | efence (e : Engine)
  /-- EBUSY (R155). Reports whether the engine has queued or executing commands. -/
  | ebusy (e : Engine) (a : BitVec 6)
  /-- MLDS (R201). Loads weights from a block stream into the shadow plane. -/
  | mlds (cph : BitVec 16) (stile : BitVec 8) (soff : BitVec 16) (depth : BitVec 1) (kn : BitVec 7) (nc : BitVec 6)
  /-- MSWP (R202). Swaps the active and shadow planes once earlier loads and streams are done. -/
  | mswp (cph : BitVec 16)
  /-- MSTR (R205). Streams activation rows through the active plane into an accumulator tile. -/
  | mstr (cph : BitVec 16) (otile : BitVec 8) (orow : BitVec 10) (nr : BitVec 10) (acc : BitVec 1) (src : BitVec 2) (stile : BitVec 8) (orient : BitVec 1) (soff : BitVec 16) (kstr : BitVec 14) (koff : BitVec 14) (kn : BitVec 7)
  /-- MZRO (R207). Zeroes a tile. -/
  | mzro (cph : BitVec 16) (otile : BitVec 8)
  /-- MDRN (R212). Drains accumulator rows through the converter into blocks or raw elements. -/
  | mdrn (cph : BitVec 16) (itile : BitVec 8) (irow : BitVec 10) (nr : BitVec 10) (otile : BitVec 8) (ooff : BitVec 16) (fmt : BitVec 5) (raw : BitVec 1) (rm : BitVec 3) (hnorm : BitVec 1) (rot : BitVec 1) (sdiv : BitVec 1) (grad : BitVec 1) (nfc : BitVec 8) (seed : BitVec 24)
  /-- MHAD (R215). Loads H32 into the shadow plane. -/
  | mhad (cph : BitVec 16)
  /-- MRED (R216). Sets or clears redundant mode once earlier commands have completed. -/
  | mred (cph : BitVec 16) (en : BitVec 1)
  /-- MXBW (R209). Writes panels of the transposing buffer, rounding to BF16. -/
  | mxbw (cph : BitVec 16) (stile : BitVec 8) (soff : BitVec 16) (src : BitVec 1) (p0 : BitVec 6) (np : BitVec 6) (rm : BitVec 3) (seed : BitVec 24)
  /-- MXBL (R210). Reads panels of the transposing buffer out to a tile. -/
  | mxbl (cph : BitVec 16) (p0 : BitVec 6) (np : BitVec 6) (orient : BitVec 1) (otile : BitVec 8) (ooff : BitVec 16) (ofmt : BitVec 1)
  /-- MWAIT (R217). Blocks the slot until every earlier matrix command has completed. -/
  | mwait (cph : BitVec 16)
  /-- MSTAT (R218). Writes the matrix engine's status record. -/
  | mstat (cph : BitVec 16) (otile : BitVec 8) (ooff : BitVec 16)
  /-- CPY (R238). Plain line-by-line copy described by a descriptor. -/
  | cpy (cph : BitVec 16) (dtile : BitVec 8) (doff : BitVec 16) (xsel : BitVec 2) (xaddr : BitVec 64)
  /-- CPYM (R242). Multicast copy to every core that hosts a member of a group. -/
  | cpym (cph : BitVec 16) (dtile : BitVec 8) (doff : BitVec 16) (xsel : BitVec 2) (xaddr : BitVec 64)
  /-- CPYF (R243). Copy followed by a matrix command at completion. -/
  | cpyf (cph : BitVec 16) (dtile : BitVec 8) (doff : BitVec 16) (xsel : BitVec 2) (xaddr : BitVec 64)
  /-- CPYT (R244). Copy that pushes a task record at completion. -/
  | cpyt (cph : BitVec 16) (dtile : BitVec 8) (doff : BitVec 16) (xsel : BitVec 2) (xaddr : BitVec 64)
  /-- CPYC (R245). Compresses FP32 rows to E4M3 blocks with error feedback and sends them. -/
  | cpyc (cph : BitVec 16) (dtile : BitVec 8) (doff : BitVec 16) (xsel : BitVec 2) (xaddr : BitVec 64)
  /-- CPYG (R246). Gathers source rows through an index list. -/
  | cpyg (cph : BitVec 16) (dtile : BitVec 8) (doff : BitVec 16) (xsel : BitVec 2) (xaddr : BitVec 64)
  /-- CPYR (R247). Combines source elements into the destination by a reduce operation. -/
  | cpyr (cph : BitVec 16) (dtile : BitVec 8) (doff : BitVec 16) (xsel : BitVec 2) (xaddr : BitVec 64)
  /-- CPYX (R248). Cancels earlier incomplete copies with a matching CPH. -/
  | cpyx (cph : BitVec 16) (tcph : BitVec 16)
  /-- NTEN (R311). Starts norm counting on a tracker channel. -/
  | nten (cph : BitVec 16) (ch : BitVec 2) (tile : BitVec 8) (off : BitVec 16) (len : BitVec 16) (fmt : BitVec 2) (mode : BitVec 1) (ncol : BitVec 15) (voff : BitVec 14) (vlen : BitVec 15)
  /-- NTOFF (R312). Stops a norm-tracker channel after earlier writes are counted. -/
  | ntoff (cph : BitVec 16) (ch : BitVec 2)
  /-- NTRD (R313). Writes a channel's sums to a tile, optionally clearing them. -/
  | ntrd (cph : BitVec 16) (ch : BitVec 2) (otile : BitVec 8) (ooff : BitVec 16) (clr : BitVec 1)
  /-- ALB (R315). Builds the alias table and factors from norm vectors. -/
  | alb (cph : BitVec 16) (atile : BitVec 8) (aoff : BitVec 16) (btile : BitVec 8) (boff : BitVec 16) (k : BitVec 15) (ttile : BitVec 8) (toff : BitVec 16)
  /-- SMPL (R318). Draws samples and accumulates until the variance test or NMAX stops it. -/
  | smpl (cph : BitVec 16) (otile : BitVec 8) (start : BitVec 1) (asrc : BitVec 1) (p0 : BitVec 6) (atile : BitVec 8) (aoff : BitVec 16) (btile : BitVec 8) (boff : BitVec 16) (ttile : BitVec 8) (toff : BitVec 16) (k : BitVec 15)
  /-- SSET (R322). Sets τ, NMIN, NMAX and the check interval. -/
  | sset (cph : BitVec 16) (tau : BitVec 32) (nmin : BitVec 24) (nmax : BitVec 24) (chk : BitVec 13)
  /-- SSEED (R322). Sets the draw seed. -/
  | sseed (cph : BitVec 16) (seed : BitVec 64)
  /-- SVAR_STORE (R322). SVAR with DIR 0 writes the sampling register record. -/
  | svarStore (cph : BitVec 16) (otile : BitVec 8) (ooff : BitVec 16)
  /-- SVAR_LOAD (R322). SVAR with DIR 1 loads the sampling register record, checking limits. -/
  | svarLoad (cph : BitVec 16) (otile : BitVec 8) (ooff : BitVec 16)
  /-- SCNT (R322). Sets the draw counter. -/
  | scnt (cph : BitVec 16) (cnt : BitVec 32)
  /-- VADD (R163). Vector elementwise add. -/
  | vadd
  /-- VSUB (R163). Vector elementwise subtract. -/
  | vsub
  /-- VMIN (R164). Vector minimum with the NaN and signed-zero rules. -/
  | vmin
  /-- VMAX (R164). Vector maximum with the NaN and signed-zero rules. -/
  | vmax
  /-- VABS (R163). Vector absolute value. -/
  | vabs
  /-- VNEG (R163). Vector negation. -/
  | vneg
  /-- VAND (R163). Vector bitwise AND. -/
  | vand
  /-- VOR (R163). Vector bitwise OR. -/
  | vor
  /-- VXOR (R163). Vector bitwise XOR. -/
  | vxor
  /-- VSHL (R164). Vector left shift. -/
  | vshl
  /-- VSHR (R164). Vector logical right shift. -/
  | vshr
  /-- VSHRA (R164). Vector arithmetic right shift. -/
  | vshra
  /-- VCEQ (R163). Vector equality compare to an all-ones or all-zeros mask. -/
  | vceq
  /-- VCNE (R163). Vector inequality compare. -/
  | vcne
  /-- VCLT (R163). Vector less-than compare. -/
  | vclt
  /-- VCLE (R163). Vector less-or-equal compare. -/
  | vcle
  /-- VSEL (R163). Vector select by a raw mask. -/
  | vsel
  /-- VMOV (R163). Vector raw move. -/
  | vmov
  /-- VCLZ (R164). Vector count of leading zeros. -/
  | vclz
  /-- VPOPC (R164). Vector population count. -/
  | vpopc
  /-- VMUL (R165). Vector multiply. -/
  | vmul
  /-- VFMA (R165). Vector fused multiply-add with one rounding. -/
  | vfma
  /-- VFMS (R165). Vector fused multiply-subtract. -/
  | vfms
  /-- VFNMA (R165). Vector fused negated multiply-add. -/
  | vfnma
  /-- VMULH (R165). Vector high product, or the product's rounding error for floating point. -/
  | vmulh
  /-- VDOT2 (R166). Sums adjacent lane-pair products into wider lanes. -/
  | vdot2
  /-- VRCP (R167). Vector reciprocal. -/
  | vrcp
  /-- VRSQ (R167). Vector reciprocal square root. -/
  | vrsq
  /-- VSQRT (R167). Vector square root. -/
  | vsqrt
  /-- VEXP2 (R167). Vector base-2 exponential. -/
  | vexp2
  /-- VLOG2 (R167). Vector base-2 logarithm. -/
  | vlog2
  /-- VSIN (R167). Vector sine. -/
  | vsin
  /-- VCOS (R167). Vector cosine. -/
  | vcos
  /-- VTANH (R167). Vector hyperbolic tangent. -/
  | vtanh
  /-- VSIGM (R167). Vector logistic sigmoid. -/
  | vsigm
  /-- VERF (R167). Vector error function. -/
  | verf
  /-- VCVT (R169). Converts lanes between element types by part. -/
  | vcvt
  /-- VQNT (R170). Encodes lanes into one self-describing block in half a row. -/
  | vqnt
  /-- VDQNT (R171). Decodes a block held in half a row into lanes. -/
  | vdqnt
  /-- VSRND (R172). Rounds lanes to the value set of a block format without scaling. -/
  | vsrnd
  /-- VNFC (R173). Checks lanes for non-finite values under NF.POLICY. -/
  | vnfc
  /-- VBSI (R176). Initialises the slot's bit-stream windows. -/
  | vbsi
  /-- VBSR (R177). Extracts the next bit field of each lane and refills the window. -/
  | vbsr
  /-- VBSQ (R178). Reads the bit-stream cursor and refill pointer. -/
  | vbsq
  /-- VPERM (R179). Permutes lanes by index. -/
  | vperm
  /-- VSHUF (R179). Shuffles lanes from two sources by index. -/
  | vshuf
  /-- VBCST (R179). Broadcasts one lane. -/
  | vbcst
  /-- VREDA (R180). Sum reduction in a fixed tree. -/
  | vreda
  /-- VREDM (R180). Max reduction in a fixed tree. -/
  | vredm
  /-- VSCAN (R181). Running sum of the enabled lanes. -/
  | vscan
  /-- VCMPR (R181). Packs the selected lanes. -/
  | vcmpr
  /-- VLD (R183). Loads a 128-byte row. -/
  | vld
  /-- VST (R183). Stores a 128-byte row. -/
  | vst
  /-- VLDG (R183). Strided element load. -/
  | vldg
  /-- VSTG (R183). Strided element store. -/
  | vstg
  /-- VGTH (R183). Indexed gather load. -/
  | vgth
  /-- VSCT (R183). Indexed scatter store. -/
  | vsct
  /-- VLDT (R184). Loads elements from a block stream, converting to ETYPE. -/
  | vldt
  /-- VSTA (R185). Stores a row, then arrives at a phaser with its byte count. -/
  | vsta
  /-- VSTA_ARRIVAL (R185). After the VSTA store has performed, its byte-counted arrival is delivered to the phaser. -/
  | vstaArrival
  /-- MATRIX_COMMAND_COMPLETE (R198). Once its writes have performed, a matrix command releases its ranges, updates its tiles and arrives at CPH. -/
  | matrixCommandComplete
  /-- COPY_DEQUEUE (R232). A queued copy takes an in-flight slot once one is free. -/
  | copyDequeue
  /-- COPY_COMPLETE (R240). After every destination byte has performed, the copy releases its ranges, arrives at its phasers and runs its action. -/
  | copyComplete
  /-- CPYF_FOLLOW_ON_ENQUEUE (R243). The CPYF follow-on enters the matrix queue once there is room and its tiles allow. -/
  | cpyfFollowOnEnqueue
  /-- COPY_SAVE_TIMEOUT (R250). A copy still incomplete 8 µs after a save began is cancelled and logged as aborted. -/
  | copySaveTimeout
  /-- SAMPLING_COMMAND_COMPLETE (R302). A sampling command completes once its writes have performed, and arrives at CPH. -/
  | samplingCommandComplete
  /-- SLOT_SWITCH (R16). The core picks the next READY slot, spending 1 clk and invalidating the latches. -/
  | slotSwitch
  /-- BLOCKED_SLOT_WAKE (R15). A blocked slot becomes READY on the clk after its condition clears. -/
  | blockedSlotWake
  /-- IDLE_EXPIRE (R140). An idling slot becomes READY once its clk count has passed. -/
  | idleExpire
  /-- PARKED_SLOT_WAKE (R141). A parked slot becomes READY when its future becomes full. -/
  | parkedSlotWake
  /-- RESULT_LANDING (R25). A fixed-latency result lands in its row and latch L clk after issue. -/
  | resultLanding
  /-- CISTERN_STORE_PERFORM (R26). A mem-slot cistern store performs 3 clk after issue. -/
  | cisternStorePerform
  /-- VARIABLE_LOAD_LANDING (R31). Variable-latency load data lands and clears the pending mark of its row or register. -/
  | variableLoadLanding
  /-- TEMPLATE_LOAD_LANDS (R153). The data of a TPLLD lands in the template store. -/
  | templateLoadLands
  /-- SYNC_RESULT_LANDS (R259). The answer of a sync operation lands in its result register. -/
  | syncResultLands
  /-- LANDING_RECORD_ENTRY_LANDS (R36). After ERET, each landing-record entry lands at clk T plus r. -/
  | landingRecordEntryLands
  /-- EXIT_FINISH (R142). After its landings and pending loads end, the exiting thread leaves its groups and frees its slot. -/
  | exitFinish
  /-- ENGINE_ARRIVAL (R271). An engine arrival adds its bytes to a phaser and may complete the open phase. -/
  | engineArrival
  /-- PHASER_ERROR_ARRIVAL (R273). An error arrival completes the open phase at once with a fault code. -/
  | phaserErrorArrival
  /-- WAITA_WAKE (R265). A write to a watched line wakes WAITA, which compares again. -/
  | waitaWake
  /-- WAITA_TIMEOUT (R265). WAITA returns status 2 when its timeout passes. -/
  | waitaTimeout
  /-- WAITA_POLL (R460). Without a watch entry, WAITA reads its word every 256 clk. -/
  | waitaPoll
  /-- COMBINING_DRAIN_TIMEOUT (R297). A combining-buffer entry drains no later than 256 clk after it opened. -/
  | combiningDrainTimeout
  /-- PACKET_FORWARD (R331). A router forwards a packet along its route, or bounces it at a down link. -/
  | packetForward
  /-- REMOTE_REQUEST_ARRIVE (R338). A request reaches its target, which performs it or rejects it with reason 8. -/
  | remoteRequestArrive
  /-- POSTED_WRITE_ACK (R340). A write's acknowledgement returns to its source and gives back a sluice unit. -/
  | postedWriteAck
  /-- REMOTE_REPLY_RECEIVED (R325). Load data or an atomic result returns to its source. -/
  | remoteReplyReceived
  /-- BOUNCE_RECEIVED (R331). A bounced request returns to its source, which records the window error. -/
  | bounceReceived
  /-- FAB_TIMEOUT (R331). A request without a reply within FAB.TMO ends with reason 9. -/
  | fabTimeout
  /-- SEQUENCE_GAP_TIMEOUT (R341). After a lost write, the target performs the held later writes when FAB.TMO expires and reports the gap. -/
  | sequenceGapTimeout
  /-- WELLHEAD_DISPATCH (R352). The wellhead dispatches an eligible queued record to a core's prefetch buffer. -/
  | wellheadDispatch
  /-- REMOTE_PUSH_ARRIVE (R357). A remote task push reaches the target wellhead, which accepts or refuses it. -/
  | remotePushArrive
  /-- REMOTE_PUSH_REPLY (R357). The reply to a remote push updates INFL and SENT and lands the handle. -/
  | remotePushReply
  /-- DEADLINE_EXPIRY (R365). An armed deadline counter reaches zero, sets EXP and posts an event. -/
  | deadlineExpiry
  /-- PUMP (R387). A write to GR.PUMP accepts or refuses a stroke of a graph. -/
  | pump
  /-- PENDING_STROKE_START (R387). A pending stroke starts once the running stroke of its graph has ended on every die. -/
  | pendingStrokeStart
  /-- STROKE_END (R388). A stroke ends when every node and trace part is done, and its token is cleared. -/
  | strokeEnd
  /-- TRACE_VERSION_INSTALL (R471). A new version of a trace set is installed on every die between two strokes. -/
  | traceVersionInstall
  /-- GRAPH_UPLOAD (R383). GR.UPLD with DEL 0 and TRC 0 uploads a graph image to every die of the gang. -/
  | graphUpload
  /-- GRAPH_DELETE (R383). GR.UPLD with DEL 1 deletes a graph and its traces. -/
  | graphDelete
  /-- TRACE_UPLOAD (R411). GR.UPLD with TRC 1 installs a refined trace version. -/
  | traceUpload
  /-- PLAYER_TEMPLATE (R397). The trace player enqueues a recorded template once its conditions hold. -/
  | playerTemplate
  /-- PLAYER_PHWAIT (R397). The player waits until a graph phaser has passed the recorded phase. -/
  | playerPhwait
  /-- PLAYER_PHARV (R397). The player makes a member arrival with the recorded bytes. -/
  | playerPharv
  /-- PLAYER_WAITN (R397). The player waits for a predecessor's completion bit. -/
  | playerWaitn
  /-- PLAYER_CALL (R397). The player places a call's record in the prefetch buffer and waits for its TKDONE. -/
  | playerCall
  /-- PLAYER_DONE (R397). The player sets a node's completion bit and sends it to dies that hold successors. -/
  | playerDone
  /-- PLAYER_MARK (R397). The player passes a MARK entry. -/
  | playerMark
  /-- PLAYER_GUARD (R397). The player passes a GUARD entry. -/
  | playerGuard
  /-- PLAYER_END (R397). The player finishes its trace part. -/
  | playerEnd
  /-- COMPLETION_BIT_RECEIVED (R470). A node completion from another die sets its bit, or decrements a handed-off successor's DEPS. -/
  | completionBitReceived
  /-- GUARD_STOP_BROADCAST (R407). A die receiving the guard stop lets each core run to its next task boundary. -/
  | guardStopBroadcast
  /-- HAND_OFF (R408). When every core of a die has stopped, the remaining nodes become wellhead records and MODE becomes 4. -/
  | handOff
  /-- EXPANSION_START (R421). A queued layer-macro expansion snapshots its descriptor and sets its share registers. -/
  | expansionStart
  /-- EXPANSION_END (R422). An expansion ends after its commands complete, and the leader's status lands when all have ended. -/
  | expansionEnd
  /-- MICRO_END (R415). Micro-operation that ends the expansion. -/
  | microEnd
  /-- MICRO_ISSUE (R415). Micro-operation that issues an engine template with optional pairs. -/
  | microIssue
  /-- MICRO_ADD (R416). Micro ALU addition. -/
  | microAdd
  /-- MICRO_SUB (R416). Micro ALU subtraction. -/
  | microSub
  /-- MICRO_MUL (R416). Micro ALU multiplication. -/
  | microMul
  /-- MICRO_SHL (R416). Micro ALU left shift. -/
  | microShl
  /-- MICRO_SHR (R416). Micro ALU right shift. -/
  | microShr
  /-- MICRO_AND (R416). Micro ALU AND. -/
  | microAnd
  /-- MICRO_OR (R416). Micro ALU OR. -/
  | microOr
  /-- MICRO_MINN (R416). Micro ALU natural minimum. -/
  | microMinn
  /-- MICRO_MAXN (R416). Micro ALU natural maximum. -/
  | microMaxn
  /-- MICRO_DIVN (R416). Micro ALU natural division. -/
  | microDivn
  /-- MICRO_LDD (R416). Reads a doubleword of the descriptor snapshot. -/
  | microLdd
  /-- MICRO_LOOP (R415). Opens a micro-loop. -/
  | microLoop
  /-- MICRO_LEND (R415). Closes a micro-loop iteration. -/
  | microLend
  /-- MICRO_WAIT_ALL (R415). Waits until every command of the expansion has completed. -/
  | microWaitAll
  /-- MICRO_WAIT_PHASER (R415). Waits until a phaser passes a phase. -/
  | microWaitPhaser
  /-- MICRO_ARRV (R415). Makes one member arrival at a phaser. -/
  | microArrv
  /-- MICRO_OPT (R423). Runs the optimiser update over a range of weight elements. -/
  | microOpt
  /-- MICRO_JNZ (R415). Branches within the microcode when a register is nonzero. -/
  | microJnz
  /-- CONTEXT_LAUNCH (R456). Switch OP 0 launches a context onto an empty core. -/
  | contextLaunch
  /-- CONTEXT_SAVE (R450). Switch OP 1 saves the resident context and leaves the core empty. -/
  | contextSave
  /-- CONTEXT_SAVE_INSTALL (R450). Switch OP 2 saves the resident context, then launches or restores another. -/
  | contextSaveInstall
  /-- CONTEXT_RESTORE (R456). Switch OP 3 restores a saved context onto an empty core. -/
  | contextRestore
  /-- CONTEXT_END (R450). Switch OP 4 ends the resident context without saving. -/
  | contextEnd
  /-- SAVE_CLOSE (R450). Once every slot has stopped, the save closes the engine queues and waits for owed writes. -/
  | saveClose
  /-- HARD_STOP (R452). After PRE.DL expires, every slot that has not stopped is stopped at once. -/
  | hardStop
  /-- SWITCH_COMPLETE (R449). The switch writes its status word with a system release and arrives at CPH. -/
  | switchComplete
  /-- TRANSLATION_WALK_DONE (R444). A walk ends, installing a translation or raising a fault. -/
  | translationWalkDone
  /-- XLT_INV_ASID (R445). XLT.INV with Q 0 invalidates every entry of an ASID in the hub and the TLBs of the die. -/
  | xltInvAsid
  /-- XLT_INV_ADDR (R445). XLT.INV with Q 1 invalidates the entries of an ASID that map an address. -/
  | xltInvAddr
  /-- XLT_INV_ALL (R445). XLT.INV with Q 2 invalidates every entry. -/
  | xltInvAll
  /-- CORE_PART_WRITE (R19). A write to CORE.PART is checked and either takes effect or is refused with a partition fault. -/
  | corePartWrite
  /-- VIEW_REGISTER_WRITE (R22). A write to a view register is checked and either takes effect or is refused with a view fault. -/
  | viewRegisterWrite
  /-- SEQ_STAT_WRITE (R109). A write to SEQ.STAT leaves INH set while landings are pending. -/
  | seqStatWrite
  /-- LS_DEPTH_WRITE (R111). A write of 7 to LS.DEPTH is refused with the loop-stack overflow fault. -/
  | lsDepthWrite
  /-- SCOPE_SG_WRITE (R287). A write to a scope-table entry with a reserved kind or group 0 is refused with the scope fault. -/
  | scopeSgWrite
  /-- NF_CBASE_WRITE (R429). A write that places the counters in the handle area is refused with the access fault. -/
  | nfCbaseWrite
  /-- FLT_BASE_WRITE (R489). Sets the fault ring and resets its pointers. -/
  | fltBaseWrite
  /-- LINK_RETRAIN_REQUEST (R487). Writing 0 to LINK.STAT.ST while the link is down starts a retrain. -/
  | linkRetrainRequest
  /-- REGISTER_WRITE (R139). A write to a control register that has no behaviour of its own, obeying the Access codes. -/
  | registerWrite
  /-- HOST_MEM_ACCESS (R458). The host reads or writes device HBM through CXL.mem. -/
  | hostMemAccess
  /-- CORRECTABLE_ERROR (R481). A single-bit error is corrected in place, counted and reported. -/
  | correctableError
  /-- UNCORRECTABLE_ERROR (R482). An uncorrectable error poisons its unit and is reported to its first consumer. -/
  | uncorrectableError
  /-- PATROL_SCRUB (R484). The scrubber reads a unit, correcting or poisoning it in place. -/
  | patrolScrub
  /-- FLIT_CRC_FAIL (R485). A flit fails its CRC, and recovery by parity, resend or retrain begins. -/
  | flitCrcFail
  /-- FLIT_ACK (R485). A receiver acknowledgement removes a flit from the replay buffer. -/
  | flitAck
  /-- LINK_RETRAIN_TIMEOUT (R485). A retrain that has not succeeded within 100 µs sends the link down. -/
  | linkRetrainTimeout
  /-- LINK_RETRAIN_SUCCESS (R491). A retrain succeeds and the device sets ST and the RDY bit. -/
  | linkRetrainSuccess
  /-- SENSOR_THRESHOLD (R498). A temperature or droop code of 12 or more lowers the cluster's operating point. -/
  | sensorThreshold
  /-- THERMAL_HALT (R498). A temperature code of 15 held for 1 ms halts the die. -/
  | thermalHalt
  /-- OPERATING_POINT_CHANGE (R497). The power manager changes the rail voltage and arithmetic clock. -/
  | operatingPointChange
  /-- BOOT_VERIFY (R495). At reset the boot ROM verifies the firmware's key, signature and version. -/
  | bootVerify
  /-- CLUSTER_SELF_TEST (R494). A cluster runs its self-test at bring-up and sets its readiness bit. -/
  | clusterSelfTest
  /-- ATTESTATION_REPORT (R496). Answers a host nonce with a report signed by the identity key. -/
  | attestationReport
  /-- HOST_LINK_TRAINING (R457). The x16 host port trains as a CXL 3.x Type 2 device when the host supports it, and otherwise as a PCIe 6.0 x16 endpoint. -/
  | hostLinkTraining
  /-- HBM_STACK_TRAINING (R494). Training of an HBM stack ends, and the stack's RDY.HBM bit is set, or left at 0 if training fails. -/
  | hbmStackTraining
  /-- FLIT_NACK_RECEIVED (R485). The sender receives a NACK naming a damaged flit and sends parity bytes, or resends the flit from its replay buffer. -/
  | flitNackReceived
  /-- FLIT_PARITY_RECEIVED (R485). The receiver combines arriving parity bytes with the stored flit and checks the CRC again, delivering the flit in order on success. -/
  | flitParityReceived
  /-- POWER_REMOVED (R497). The host platform removes power, and the device loses all its state. -/
  | powerRemoved
  deriving DecidableEq, Repr

end Sys2Proof
end

