-- ==== Sys2Proof/WellFormed.lean ====
section
/-! DEFINITION. Which instructions have an encoding: the field rules of 03 and of the entries, each with a name. -/

namespace Sys2Proof

/-- Why a word is no instruction (R69, R72–R75, R77, R78–R85, R97, R107), or a template no command (R94). -/
inductive Reject where
  /-- the word 0x0000_0000 (R69) -/
  | zeroWord
  /-- an opcode that R78–R85 and R88 leave unassigned -/
  | unassigned
  /-- a nonzero field that the entry does not read, or that the format marks 0 (R69) -/
  | markedZero
  /-- K = 1 with a constant index outside 0–23 and 32–39 (R72) -/
  | constantIndex
  /-- SEXT or ZEXT with a source width code of 3 to 7 (R72) -/
  | sourceWidth
  /-- LOOP or LOOPI whose distance is not 1 or more (R75) -/
  | loopDistance
  /-- FENCEC or FENCEX with a mask of 0 (R77) -/
  | emptyMask
  /-- a control-register number that no chapter assigns (R107, R108) -/
  | registerNumber
  /-- an imm10 or f4 above the range of its entry (R136, R356) -/
  | queryRange
  /-- a field read only for another value of its controlling field (R69) -/
  | unreadField
  /-- a destination register that the entry forbids (R358, R361) -/
  | destination
  /-- a word cut short: fewer than four bytes -/
  | truncated
  /-- a reserved template opcode (R90) -/
  | templateOpcode
  /-- nonzero bits that the opcode's field table marks 0 (R94, R192) -/
  | templateMarkedZero
  /-- a template field outside a limit marked "decode" (R194) -/
  | templateLimit
  deriving DecidableEq, Repr

/-- R72: the inline constants that format A admits. -/
def constIndexOk (b : BitVec 6) : Bool := b.toNat < 24 || (32 ≤ b.toNat && b.toNat < 40)

/-- R108 and the chapters it names: the assigned control-register numbers. -/
def csrAssigned (n : BitVec 10) : Bool :=
  let v := n.toNat
  v < 4 || (0x008 ≤ v && v ≤ 0x010) || (0x018 ≤ v && v ≤ 0x01D) || (0x020 ≤ v && v ≤ 0x025) ||
  (0x028 ≤ v && v ≤ 0x02D) || (0x030 ≤ v && v ≤ 0x037) || v == 0x040 ||
  (0x100 ≤ v && v ≤ 0x109) || (0x110 ≤ v && v ≤ 0x117) || (0x120 ≤ v && v ≤ 0x123) ||
  (0x180 ≤ v && v ≤ 0x183) || v == 0x200 || v == 0x201 || (0x240 ≤ v && v ≤ 0x246) ||
  (0x280 ≤ v && v ≤ 0x282) || v == 0x288 || (0x300 ≤ v && v ≤ 0x303) || (0x360 ≤ v && v ≤ 0x37F) ||
  (0x380 ≤ v && v ≤ 0x385) || (0x388 ≤ v && v ≤ 0x38D)

/-- The check of a second operand under K (R72). -/
def constCheck (k : Bool) (b : BitVec 6) : Option Reject :=
  if k && !constIndexOk b then some .constantIndex else none

/-- The check of a control-register number. -/
def csrCheck (n : BitVec 10) : Option Reject := if csrAssigned n then none else some .registerNumber

/-- A named check. -/
def need (c : Bool) (r : Reject) : Option Reject := if c then none else some r

/-- R69, R87: a patch word that makes no amendment does not read its value16. -/
def patchCheck (f : BitVec 6) (v : BitVec 16) : Option Reject := need (f != 0x3F || v == 0) .unreadField

/-- R203: the limits of MSTR that its field table marks "decode". -/
def mstrLimits (src : BitVec 2) (stile : BitVec 8) (orient : BitVec 1) (soff : BitVec 16) (kstr koff : BitVec 14)
    (kn : BitVec 7) : Bool :=
  let s := src.toNat
  s != 3 && (s != 1 || stile == 0) && (s == 1 || orient == 0) && (s != 1 || soff.toNat < 64) &&
  (if s == 0 then kstr != 0 else kstr == 0) && (if s == 0 then koff.toNat % 32 == 0 else koff == 0) &&
  1 ≤ kn.toNat && (if s == 0 then kn.toNat ≤ 64 else kn.toNat ≤ 32)

/-- R43, R322: the FP32 code is not a NaN and its sign is 0. -/
def tauOk (t : BitVec 32) : Bool := t.toNat ≤ 0x7F800000

/-- The first rule of its entry that an instruction breaks; none for an instruction that has an encoding. NC of an MLDS above
31 breaks a limit checked at decode (log 87, DEDUCED). -/
def Instr.defect : Instr → Option Reject
  | .add d a b k => if d == 0 && a == 0 && b == 0 && !k then some .zeroWord else constCheck k b
  | .sub _ _ b k => constCheck k b
  | .mul _ _ b k => constCheck k b
  | .mulh _ _ b k => constCheck k b
  | .mulhn _ _ b k => constCheck k b
  | .div _ _ b k => constCheck k b
  | .divn _ _ b k => constCheck k b
  | .rem _ _ b k => constCheck k b
  | .remn _ _ b k => constCheck k b
  | .and _ _ b k => constCheck k b
  | .or _ _ b k => constCheck k b
  | .xor _ _ b k => constCheck k b
  | .andn _ _ b k => constCheck k b
  | .orn _ _ b k => constCheck k b
  | .shl _ _ b k => constCheck k b
  | .shr _ _ b k => constCheck k b
  | .shra _ _ b k => constCheck k b
  | .rotl _ _ b k => constCheck k b
  | .rotr _ _ b k => constCheck k b
  | .min _ _ b k => constCheck k b
  | .max _ _ b k => constCheck k b
  | .minn _ _ b k => constCheck k b
  | .maxn _ _ b k => constCheck k b
  | .cmpeq _ _ b k => constCheck k b
  | .cmpne _ _ b k => constCheck k b
  | .cmplt _ _ b k => constCheck k b
  | .cmple _ _ b k => constCheck k b
  | .cmpltn _ _ b k => constCheck k b
  | .cmplen _ _ b k => constCheck k b
  | .sel _ _ b k => constCheck k b
  | .clz _ _ => none
  | .ctz _ _ => none
  | .popc _ _ => none
  | .brev _ _ => none
  | .bswp _ _ => none
  | .sext _ _ w => need (w.toNat ≤ 2) .sourceWidth
  | .zext _ _ w => need (w.toNat ≤ 2) .sourceWidth
  | .bfx _ _ b k => constCheck k b
  | .bfi _ _ b k => constCheck k b
  | .addsh _ _ b k _ => constCheck k b
  | .madd _ _ b k => constCheck k b
  | .absd _ _ b k => constCheck k b
  | .addi _ _ _ => none
  | .muli _ _ _ => none
  | .andi _ _ _ => none
  | .ori _ _ _ => none
  | .xori _ _ _ => none
  | .shli _ _ _ => none
  | .shri _ _ _ => none
  | .shrai _ _ _ => none
  | .rotli _ _ _ => none
  | .cmpeqi _ _ _ => none
  | .cmplti _ _ _ => none
  | .cmpltni _ _ _ => none
  | .mini _ _ _ => none
  | .maxi _ _ _ => none
  | .movi _ _ _ => none
  | .movk _ _ _ => none
  | .movn _ _ _ => none
  | .ldb _ _ _ _ => none
  | .ldh _ _ _ _ => none
  | .ldw _ _ _ _ => none
  | .ldd _ _ _ _ => none
  | .ldbs _ _ _ _ => none
  | .ldhs _ _ _ _ => none
  | .ldws _ _ _ _ => none
  | .stb _ _ _ _ => none
  | .sth _ _ _ _ => none
  | .stw _ _ _ _ => none
  | .std _ _ _ _ => none
  | .pref _ _ _ => none
  | .bz _ _ => none
  | .bnz _ _ => none
  | .bltz _ _ => none
  | .bgez _ _ => none
  | .jmp _ => none
  | .jal _ => none
  | .jr _ => none
  | .loop _ e => need (1 ≤ e.toNat && e.toNat < 0x20000) .loopDistance
  | .loopi _ e => need (e != 0) .loopDistance
  | .endl => none
  | .brkl => none
  | .amadd _ _ _ _ => none
  | .amfadd _ _ _ _ => none
  | .ammin _ _ _ _ => none
  | .ammax _ _ _ _ => none
  | .amminn _ _ _ _ => none
  | .ammaxn _ _ _ _ => none
  | .amand _ _ _ _ => none
  | .amor _ _ _ _ => none
  | .amxor _ _ _ _ => none
  | .amxch _ _ _ _ => none
  | .amcas _ _ _ _ => none
  | .amincb _ _ _ _ => none
  | .lda _ _ _ => none
  | .strl _ _ _ => none
  | .waita _ _ _ _ => none
  | .ftset _ _ _ _ => none
  | .ftsetw _ _ _ _ => none
  | .ftget _ _ _ => none
  | .fttry _ _ _ _ => none
  | .phnew _ _ _ => none
  | .phreg _ _ _ => none
  | .phdrop _ _ _ => none
  | .pharv _ _ _ _ => none
  | .phwait _ _ _ _ => none
  | .pharw _ _ _ _ => none
  | .phbyt _ _ _ => none
  | .brbase _ _ _ => none
  | .bradv _ => none
  | .brcmp _ _ _ _ => none
  | .rcsnap _ _ _ _ => none
  | .rcinc _ _ _ => none
  | .amred _ _ _ _ => none
  | .fencec m => need (m != 0) .emptyMask
  | .fencex p => need (p != 0) .emptyMask
  | .fences _ => none
  | .fencef _ _ _ => none
  | .winset _ _ => none
  | .winrt _ _ _ => none
  | .wallow _ _ _ => none
  | .winq _ _ => none
  | .topord _ _ => none
  | .rtchk _ _ _ => none
  | .trap _ => none
  | .sysc _ => none
  | .eret => none
  | .csrrd _ n => csrCheck n
  | .csrwr _ n => csrCheck n
  | .csrset _ n => csrCheck n
  | .csrclr _ n => csrCheck n
  | .nop => none
  | .idle _ => none
  | .yield => none
  | .park _ => none
  | .exit => none
  | .spawn _ _ _ => none
  | .join _ a c => need (c == 0 || a == 0) .unreadField
  | .leave _ _ => none
  | .grpq _ _ q => need (q.toNat ≤ 2) .queryRange
  | .thid _ q => need (q.toNat ≤ 3) .queryRange
  | .lidx _ l => need (l.toNat ≤ 5) .queryRange
  | .tlbinv a q => if 2 < q.toNat then some .queryRange else need (q != 2 || a == 0) .unreadField
  | .ctxsw _ _ => none
  | .brkp _ => none
  | .tkpush _ _ b r => need (r == 1 || b == 0) .unreadField
  | .tkpop d _ => need (!((1 ≤ d.toNat && d.toNat ≤ 4) || d == 63)) .destination
  | .tkdone _ => none
  | .tkpeek _ a q => if 3 < q.toNat then some .queryRange else need (a == 0 || q == 2) .unreadField
  | .jcnt d _ b => need (b != 0 && b != d) .destination
  | .rngget _ _ _ => none
  | .schnxt _ _ => none
  | .dlset _ _ _ _ => none
  | .dlchk _ _ => none
  | .grdshp _ _ _ => none
  | .grdval _ _ _ => none
  | .grdhlth _ _ => none
  | .recmrk _ _ => none
  | .ctkset _ _ _ => none
  | .ctkchk _ _ => none
  | .lfwd _ _ _ => none
  | .ldgr _ _ _ => none
  | .lwgr _ _ _ => none
  | .lupd _ _ _ => none
  | .mcld _ _ _ => none
  | .mcstat _ a q => if 1 < q.toNat then some .queryRange else need (q == 1 || a == 0) .unreadField
  | .vx _ f v => patchCheck f v
  | .mx _ f v => patchCheck f v
  | .cx _ f v => patchCheck f v
  | .sx _ f v => patchCheck f v
  | .ecmd _ _ _ _ => none
  | .tplld _ _ _ => none
  | .tplrd _ _ _ => none
  | .efence _ => none
  | .ebusy _ _ => none
  | .mlds _ _ _ depth kn nc => need (1 ≤ kn.toNat && kn.toNat ≤ (if depth == 0 then 32 else 64) && nc.toNat ≤ 31) .templateLimit
  | .mswp _ => none
  | .mstr _ _ _ _ _ src stile orient soff kstr koff kn => need (mstrLimits src stile orient soff kstr koff kn) .templateLimit
  | .mzro _ _ => none
  | .mdrn _ _ _ _ _ _ fmt raw rm _ _ _ _ _ _ => need (1 ≤ fmt.toNat && fmt.toNat ≤ 9 && (raw == 0 || fmt == 1 || fmt == 9) && rm.toNat ≤ 4) .templateLimit
  | .mhad _ => none
  | .mred _ _ => none
  | .mxbw _ _ _ _ p0 np rm _ => need (p0.toNat + np.toNat ≤ 63 && rm.toNat ≤ 4) .templateLimit
  | .mxbl _ p0 np _ _ _ _ => need (p0.toNat + np.toNat ≤ 63) .templateLimit
  | .mwait _ => none
  | .mstat _ _ _ => none
  | .cpy _ _ _ xsel _ => need (xsel.toNat ≤ 2) .templateLimit
  | .cpym _ _ _ xsel _ => need (xsel.toNat ≤ 2) .templateLimit
  | .cpyf _ _ _ xsel _ => need (xsel.toNat ≤ 2) .templateLimit
  | .cpyt _ _ _ xsel _ => need (xsel.toNat ≤ 2) .templateLimit
  | .cpyc _ _ _ xsel _ => need (xsel.toNat ≤ 2) .templateLimit
  | .cpyg _ _ _ xsel _ => need (xsel.toNat ≤ 2) .templateLimit
  | .cpyr _ _ _ xsel _ => need (xsel.toNat ≤ 2) .templateLimit
  | .cpyx _ _ => none
  | .nten _ _ _ _ _ fmt _ ncol voff vlen => need (fmt.toNat ≤ 2 && 1 ≤ ncol.toNat && ncol.toNat ≤ 16384 && 1 ≤ vlen.toNat && voff.toNat + vlen.toNat ≤ 16384) .templateLimit
  | .ntoff _ _ => none
  | .ntrd _ _ _ _ _ => none
  | .alb _ _ _ _ _ k _ _ => need (1 ≤ k.toNat && k.toNat ≤ 16384) .templateLimit
  | .smpl _ _ _ asrc p0 atile aoff _ _ _ _ k => need (1 ≤ k.toNat && k.toNat ≤ 16384 && (if asrc == 0 then atile == 0 && aoff == 0 else p0 == 0)) .templateLimit
  | .sset _ tau nmin nmax chk => need (tauOk tau && 2 ≤ nmin.toNat && nmin.toNat ≤ nmax.toNat && 1 ≤ chk.toNat && chk.toNat ≤ 4096) .templateLimit
  | .sseed _ _ => none
  | .svarStore _ _ _ => none
  | .svarLoad _ _ _ => none
  | .scnt _ _ => none
  | .vadd => none
  | .vsub => none
  | .vmin => none
  | .vmax => none
  | .vabs => none
  | .vneg => none
  | .vand => none
  | .vor => none
  | .vxor => none
  | .vshl => none
  | .vshr => none
  | .vshra => none
  | .vceq => none
  | .vcne => none
  | .vclt => none
  | .vcle => none
  | .vsel => none
  | .vmov => none
  | .vclz => none
  | .vpopc => none
  | .vmul => none
  | .vfma => none
  | .vfms => none
  | .vfnma => none
  | .vmulh => none
  | .vdot2 => none
  | .vrcp => none
  | .vrsq => none
  | .vsqrt => none
  | .vexp2 => none
  | .vlog2 => none
  | .vsin => none
  | .vcos => none
  | .vtanh => none
  | .vsigm => none
  | .verf => none
  | .vcvt => none
  | .vqnt => none
  | .vdqnt => none
  | .vsrnd => none
  | .vnfc => none
  | .vbsi => none
  | .vbsr => none
  | .vbsq => none
  | .vperm => none
  | .vshuf => none
  | .vbcst => none
  | .vreda => none
  | .vredm => none
  | .vscan => none
  | .vcmpr => none
  | .vld => none
  | .vst => none
  | .vldg => none
  | .vstg => none
  | .vgth => none
  | .vsct => none
  | .vldt => none
  | .vsta => none
  | .vstaArrival => none
  | .matrixCommandComplete => none
  | .copyDequeue => none
  | .copyComplete => none
  | .cpyfFollowOnEnqueue => none
  | .copySaveTimeout => none
  | .samplingCommandComplete => none
  | .slotSwitch => none
  | .blockedSlotWake => none
  | .idleExpire => none
  | .parkedSlotWake => none
  | .resultLanding => none
  | .cisternStorePerform => none
  | .variableLoadLanding => none
  | .templateLoadLands => none
  | .syncResultLands => none
  | .landingRecordEntryLands => none
  | .exitFinish => none
  | .engineArrival => none
  | .phaserErrorArrival => none
  | .waitaWake => none
  | .waitaTimeout => none
  | .waitaPoll => none
  | .combiningDrainTimeout => none
  | .packetForward => none
  | .remoteRequestArrive => none
  | .postedWriteAck => none
  | .remoteReplyReceived => none
  | .bounceReceived => none
  | .fabTimeout => none
  | .sequenceGapTimeout => none
  | .wellheadDispatch => none
  | .remotePushArrive => none
  | .remotePushReply => none
  | .deadlineExpiry => none
  | .pump => none
  | .pendingStrokeStart => none
  | .strokeEnd => none
  | .traceVersionInstall => none
  | .graphUpload => none
  | .graphDelete => none
  | .traceUpload => none
  | .playerTemplate => none
  | .playerPhwait => none
  | .playerPharv => none
  | .playerWaitn => none
  | .playerCall => none
  | .playerDone => none
  | .playerMark => none
  | .playerGuard => none
  | .playerEnd => none
  | .completionBitReceived => none
  | .guardStopBroadcast => none
  | .handOff => none
  | .expansionStart => none
  | .expansionEnd => none
  | .microEnd => none
  | .microIssue => none
  | .microAdd => none
  | .microSub => none
  | .microMul => none
  | .microShl => none
  | .microShr => none
  | .microAnd => none
  | .microOr => none
  | .microMinn => none
  | .microMaxn => none
  | .microDivn => none
  | .microLdd => none
  | .microLoop => none
  | .microLend => none
  | .microWaitAll => none
  | .microWaitPhaser => none
  | .microArrv => none
  | .microOpt => none
  | .microJnz => none
  | .contextLaunch => none
  | .contextSave => none
  | .contextSaveInstall => none
  | .contextRestore => none
  | .contextEnd => none
  | .saveClose => none
  | .hardStop => none
  | .switchComplete => none
  | .translationWalkDone => none
  | .xltInvAsid => none
  | .xltInvAddr => none
  | .xltInvAll => none
  | .corePartWrite => none
  | .viewRegisterWrite => none
  | .seqStatWrite => none
  | .lsDepthWrite => none
  | .scopeSgWrite => none
  | .nfCbaseWrite => none
  | .fltBaseWrite => none
  | .linkRetrainRequest => none
  | .registerWrite => none
  | .hostMemAccess => none
  | .correctableError => none
  | .uncorrectableError => none
  | .patrolScrub => none
  | .flitCrcFail => none
  | .flitAck => none
  | .linkRetrainTimeout => none
  | .linkRetrainSuccess => none
  | .sensorThreshold => none
  | .thermalHalt => none
  | .operatingPointChange => none
  | .bootVerify => none
  | .clusterSelfTest => none
  | .attestationReport => none
  | .hostLinkTraining => none
  | .hbmStackTraining => none
  | .flitNackReceived => none
  | .flitParityReceived => none
  | .powerRemoved => none

/-- An instruction that has an encoding. -/
def Instr.wf (i : Instr) : Bool := i.defect.isNone

end Sys2Proof
end

