-- ==== Sys2Proof/Decode.lean ====
section
/-! DEFINITION. The decoder of instruction words and of templates, and after each the encoder, from the tables of 03,
06, 07 and 10. Every word and every template is decoded or rejected by name. -/

namespace Sys2Proof

/-- Field [lo + n - 1 : lo] of an instruction word. -/
def fld (w : InstrWord) (lo n : Nat) : BitVec n := w.extractLsb' lo n

/-- Field [lo + n - 1 : lo] of a template. -/
def tfld (t : Template) (lo n : Nat) : BitVec n := t.extractLsb' lo n

/-- Bits [30:29] of an engine word (R86). -/
def Engine.ofCode (c : BitVec 2) : Engine :=
  match c.toNat with
  | 0 => .vec
  | 1 => .mat
  | 2 => .cpy
  | _ => .smp

/-- The number of an engine (R86). -/
def Engine.code : Engine → Nat
  | .vec => 0
  | .mat => 1
  | .cpy => 2
  | .smp => 3

/-- The element type of a code (R93). -/
def EType.ofCode (c : BitVec 3) : EType :=
  match c.toNat with
  | 0 => .f32
  | 1 => .bf16
  | 2 => .f16
  | 3 => .i32
  | 4 => .n32
  | 5 => .i16
  | 6 => .i8
  | _ => .n8

/-- The rounding mode of a code; none for the reserved codes (R46). -/
def RMode.ofCode (c : Nat) : Option RMode :=
  match c with
  | 0 => some .rne
  | 1 => some .rtz
  | 2 => some .rup
  | 3 => some .rdn
  | 4 => some .rsto
  | _ => none

/-- Class 0x0 (R78): the instruction that the opcode field names, and whether every field it does not read is 0. -/
def rawA (w : InstrWord) : Option (Instr × Bool) :=
  match (fld w 22 6).toNat with
  | 0 => some (.add (fld w 16 6) (fld w 10 6) (fld w 4 6) (w.getLsbD 3), fld w 0 3 == 0)
  | 1 => some (.sub (fld w 16 6) (fld w 10 6) (fld w 4 6) (w.getLsbD 3), fld w 0 3 == 0)
  | 2 => some (.mul (fld w 16 6) (fld w 10 6) (fld w 4 6) (w.getLsbD 3), fld w 0 3 == 0)
  | 3 => some (.mulh (fld w 16 6) (fld w 10 6) (fld w 4 6) (w.getLsbD 3), fld w 0 3 == 0)
  | 4 => some (.mulhn (fld w 16 6) (fld w 10 6) (fld w 4 6) (w.getLsbD 3), fld w 0 3 == 0)
  | 5 => some (.div (fld w 16 6) (fld w 10 6) (fld w 4 6) (w.getLsbD 3), fld w 0 3 == 0)
  | 6 => some (.divn (fld w 16 6) (fld w 10 6) (fld w 4 6) (w.getLsbD 3), fld w 0 3 == 0)
  | 7 => some (.rem (fld w 16 6) (fld w 10 6) (fld w 4 6) (w.getLsbD 3), fld w 0 3 == 0)
  | 8 => some (.remn (fld w 16 6) (fld w 10 6) (fld w 4 6) (w.getLsbD 3), fld w 0 3 == 0)
  | 9 => some (.and (fld w 16 6) (fld w 10 6) (fld w 4 6) (w.getLsbD 3), fld w 0 3 == 0)
  | 10 => some (.or (fld w 16 6) (fld w 10 6) (fld w 4 6) (w.getLsbD 3), fld w 0 3 == 0)
  | 11 => some (.xor (fld w 16 6) (fld w 10 6) (fld w 4 6) (w.getLsbD 3), fld w 0 3 == 0)
  | 12 => some (.andn (fld w 16 6) (fld w 10 6) (fld w 4 6) (w.getLsbD 3), fld w 0 3 == 0)
  | 13 => some (.orn (fld w 16 6) (fld w 10 6) (fld w 4 6) (w.getLsbD 3), fld w 0 3 == 0)
  | 14 => some (.shl (fld w 16 6) (fld w 10 6) (fld w 4 6) (w.getLsbD 3), fld w 0 3 == 0)
  | 15 => some (.shr (fld w 16 6) (fld w 10 6) (fld w 4 6) (w.getLsbD 3), fld w 0 3 == 0)
  | 16 => some (.shra (fld w 16 6) (fld w 10 6) (fld w 4 6) (w.getLsbD 3), fld w 0 3 == 0)
  | 17 => some (.rotl (fld w 16 6) (fld w 10 6) (fld w 4 6) (w.getLsbD 3), fld w 0 3 == 0)
  | 18 => some (.rotr (fld w 16 6) (fld w 10 6) (fld w 4 6) (w.getLsbD 3), fld w 0 3 == 0)
  | 19 => some (.min (fld w 16 6) (fld w 10 6) (fld w 4 6) (w.getLsbD 3), fld w 0 3 == 0)
  | 20 => some (.max (fld w 16 6) (fld w 10 6) (fld w 4 6) (w.getLsbD 3), fld w 0 3 == 0)
  | 21 => some (.minn (fld w 16 6) (fld w 10 6) (fld w 4 6) (w.getLsbD 3), fld w 0 3 == 0)
  | 22 => some (.maxn (fld w 16 6) (fld w 10 6) (fld w 4 6) (w.getLsbD 3), fld w 0 3 == 0)
  | 23 => some (.cmpeq (fld w 16 6) (fld w 10 6) (fld w 4 6) (w.getLsbD 3), fld w 0 3 == 0)
  | 24 => some (.cmpne (fld w 16 6) (fld w 10 6) (fld w 4 6) (w.getLsbD 3), fld w 0 3 == 0)
  | 25 => some (.cmplt (fld w 16 6) (fld w 10 6) (fld w 4 6) (w.getLsbD 3), fld w 0 3 == 0)
  | 26 => some (.cmple (fld w 16 6) (fld w 10 6) (fld w 4 6) (w.getLsbD 3), fld w 0 3 == 0)
  | 27 => some (.cmpltn (fld w 16 6) (fld w 10 6) (fld w 4 6) (w.getLsbD 3), fld w 0 3 == 0)
  | 28 => some (.cmplen (fld w 16 6) (fld w 10 6) (fld w 4 6) (w.getLsbD 3), fld w 0 3 == 0)
  | 29 => some (.sel (fld w 16 6) (fld w 10 6) (fld w 4 6) (w.getLsbD 3), fld w 0 3 == 0)
  | 30 => some (.clz (fld w 16 6) (fld w 10 6), fld w 0 10 == 0)
  | 31 => some (.ctz (fld w 16 6) (fld w 10 6), fld w 0 10 == 0)
  | 32 => some (.popc (fld w 16 6) (fld w 10 6), fld w 0 10 == 0)
  | 33 => some (.brev (fld w 16 6) (fld w 10 6), fld w 0 10 == 0)
  | 34 => some (.bswp (fld w 16 6) (fld w 10 6), fld w 0 10 == 0)
  | 35 => some (.sext (fld w 16 6) (fld w 10 6) (fld w 0 3), fld w 3 7 == 0)
  | 36 => some (.zext (fld w 16 6) (fld w 10 6) (fld w 0 3), fld w 3 7 == 0)
  | 37 => some (.bfx (fld w 16 6) (fld w 10 6) (fld w 4 6) (w.getLsbD 3), fld w 0 3 == 0)
  | 38 => some (.bfi (fld w 16 6) (fld w 10 6) (fld w 4 6) (w.getLsbD 3), fld w 0 3 == 0)
  | 39 => some (.addsh (fld w 16 6) (fld w 10 6) (fld w 4 6) (w.getLsbD 3) (fld w 0 3), true)
  | 40 => some (.madd (fld w 16 6) (fld w 10 6) (fld w 4 6) (w.getLsbD 3), fld w 0 3 == 0)
  | 41 => some (.absd (fld w 16 6) (fld w 10 6) (fld w 4 6) (w.getLsbD 3), fld w 0 3 == 0)
  | _ => none

/-- Class 0x1 (R79): the instruction that the opcode field names, and whether every field it does not read is 0. -/
def rawI (w : InstrWord) : Option (Instr × Bool) :=
  match (fld w 22 6).toNat with
  | 0 => some (.addi (fld w 16 6) (fld w 10 6) (fld w 0 10), true)
  | 1 => some (.muli (fld w 16 6) (fld w 10 6) (fld w 0 10), true)
  | 2 => some (.andi (fld w 16 6) (fld w 10 6) (fld w 0 10), true)
  | 3 => some (.ori (fld w 16 6) (fld w 10 6) (fld w 0 10), true)
  | 4 => some (.xori (fld w 16 6) (fld w 10 6) (fld w 0 10), true)
  | 5 => some (.shli (fld w 16 6) (fld w 10 6) (fld w 0 6), fld w 6 4 == 0)
  | 6 => some (.shri (fld w 16 6) (fld w 10 6) (fld w 0 6), fld w 6 4 == 0)
  | 7 => some (.shrai (fld w 16 6) (fld w 10 6) (fld w 0 6), fld w 6 4 == 0)
  | 8 => some (.rotli (fld w 16 6) (fld w 10 6) (fld w 0 6), fld w 6 4 == 0)
  | 9 => some (.cmpeqi (fld w 16 6) (fld w 10 6) (fld w 0 10), true)
  | 10 => some (.cmplti (fld w 16 6) (fld w 10 6) (fld w 0 10), true)
  | 11 => some (.cmpltni (fld w 16 6) (fld w 10 6) (fld w 0 10), true)
  | 12 => some (.mini (fld w 16 6) (fld w 10 6) (fld w 0 10), true)
  | 13 => some (.maxi (fld w 16 6) (fld w 10 6) (fld w 0 10), true)
  | 16 | 17 | 18 | 19 => some (.movi (fld w 22 2) (fld w 16 6) (fld w 0 16), true)
  | 20 | 21 | 22 | 23 => some (.movk (fld w 22 2) (fld w 16 6) (fld w 0 16), true)
  | 24 | 25 | 26 | 27 => some (.movn (fld w 22 2) (fld w 16 6) (fld w 0 16), true)
  | _ => none

/-- Class 0x2 (R80): the instruction that the opcode field names, and whether every field it does not read is 0. -/
def rawM (w : InstrWord) : Option (Instr × Bool) :=
  match (fld w 24 4).toNat with
  | 0 => some (.ldb (fld w 20 4) (fld w 14 6) (fld w 8 6) (fld w 0 8), true)
  | 1 => some (.ldh (fld w 20 4) (fld w 14 6) (fld w 8 6) (fld w 0 8), true)
  | 2 => some (.ldw (fld w 20 4) (fld w 14 6) (fld w 8 6) (fld w 0 8), true)
  | 3 => some (.ldd (fld w 20 4) (fld w 14 6) (fld w 8 6) (fld w 0 8), true)
  | 4 => some (.ldbs (fld w 20 4) (fld w 14 6) (fld w 8 6) (fld w 0 8), true)
  | 5 => some (.ldhs (fld w 20 4) (fld w 14 6) (fld w 8 6) (fld w 0 8), true)
  | 6 => some (.ldws (fld w 20 4) (fld w 14 6) (fld w 8 6) (fld w 0 8), true)
  | 7 => some (.stb (fld w 20 4) (fld w 14 6) (fld w 8 6) (fld w 0 8), true)
  | 8 => some (.sth (fld w 20 4) (fld w 14 6) (fld w 8 6) (fld w 0 8), true)
  | 9 => some (.stw (fld w 20 4) (fld w 14 6) (fld w 8 6) (fld w 0 8), true)
  | 10 => some (.std (fld w 20 4) (fld w 14 6) (fld w 8 6) (fld w 0 8), true)
  | 11 => some (.pref (fld w 20 4) (fld w 8 6) (fld w 0 8), fld w 14 6 == 0)
  | _ => none

/-- Class 0x3 (R81): the instruction that the opcode field names, and whether every field it does not read is 0. -/
def rawB (w : InstrWord) : Option (Instr × Bool) :=
  match (fld w 24 4).toNat with
  | 0 => some (.bz (fld w 18 6) (fld w 0 18), true)
  | 1 => some (.bnz (fld w 18 6) (fld w 0 18), true)
  | 2 => some (.bltz (fld w 18 6) (fld w 0 18), true)
  | 3 => some (.bgez (fld w 18 6) (fld w 0 18), true)
  | 4 => some (.jmp (fld w 0 18), fld w 18 6 == 0)
  | 5 => some (.jal (fld w 0 18), fld w 18 6 == 0)
  | 6 => some (.jr (fld w 18 6), fld w 0 18 == 0)
  | 7 => some (.loop (fld w 18 6) (fld w 0 18), true)
  | 8 => some (.loopi (fld w 12 12) (fld w 0 12), true)
  | 9 => some (.endl, fld w 0 24 == 0)
  | 10 => some (.brkl, fld w 0 24 == 0)
  | _ => none

/-- Class 0x4 (R82): the instruction that the opcode field names, and whether every field it does not read is 0. -/
def rawS (w : InstrWord) : Option (Instr × Bool) :=
  match (fld w 23 5).toNat with
  | 0 => some (.amadd (fld w 17 6) (fld w 11 6) (fld w 5 6) (fld w 0 5), true)
  | 1 => some (.amfadd (fld w 17 6) (fld w 11 6) (fld w 5 6) (fld w 0 5), true)
  | 2 => some (.ammin (fld w 17 6) (fld w 11 6) (fld w 5 6) (fld w 0 5), true)
  | 3 => some (.ammax (fld w 17 6) (fld w 11 6) (fld w 5 6) (fld w 0 5), true)
  | 4 => some (.amminn (fld w 17 6) (fld w 11 6) (fld w 5 6) (fld w 0 5), true)
  | 5 => some (.ammaxn (fld w 17 6) (fld w 11 6) (fld w 5 6) (fld w 0 5), true)
  | 6 => some (.amand (fld w 17 6) (fld w 11 6) (fld w 5 6) (fld w 0 5), true)
  | 7 => some (.amor (fld w 17 6) (fld w 11 6) (fld w 5 6) (fld w 0 5), true)
  | 8 => some (.amxor (fld w 17 6) (fld w 11 6) (fld w 5 6) (fld w 0 5), true)
  | 9 => some (.amxch (fld w 17 6) (fld w 11 6) (fld w 5 6) (fld w 0 5), true)
  | 10 => some (.amcas (fld w 17 6) (fld w 11 6) (fld w 5 6) (fld w 0 5), true)
  | 11 => some (.amincb (fld w 17 6) (fld w 11 6) (fld w 5 6) (fld w 0 5), true)
  | 12 => some (.lda (fld w 17 6) (fld w 11 6) (fld w 0 5), fld w 5 6 == 0)
  | 13 => some (.strl (fld w 11 6) (fld w 5 6) (fld w 0 5), fld w 17 6 == 0)
  | 14 => some (.waita (fld w 17 6) (fld w 11 6) (fld w 5 6) (fld w 0 5), true)
  | 15 => some (.ftset (fld w 17 6) (fld w 11 6) (fld w 5 6) (fld w 0 5), true)
  | 16 => some (.ftsetw (fld w 17 6) (fld w 11 6) (fld w 5 6) (fld w 0 5), true)
  | 17 => some (.ftget (fld w 17 6) (fld w 11 6) (fld w 0 5), fld w 5 6 == 0)
  | 18 => some (.fttry (fld w 17 6) (fld w 11 6) (fld w 5 6) (fld w 0 5), true)
  | 19 => some (.phnew (fld w 17 6) (fld w 11 6) (fld w 5 6), fld w 0 5 == 0)
  | 20 => some (.phreg (fld w 17 6) (fld w 11 6) (fld w 5 6), fld w 0 5 == 0)
  | 21 => some (.phdrop (fld w 17 6) (fld w 11 6) (fld w 5 6), fld w 0 5 == 0)
  | 22 => some (.pharv (fld w 17 6) (fld w 11 6) (fld w 5 6) (fld w 0 5), true)
  | 23 => some (.phwait (fld w 17 6) (fld w 11 6) (fld w 5 6) (fld w 0 5), true)
  | 24 => some (.pharw (fld w 17 6) (fld w 11 6) (fld w 5 6) (fld w 0 5), true)
  | 25 => some (.phbyt (fld w 17 6) (fld w 11 6) (fld w 5 6), fld w 0 5 == 0)
  | 26 => some (.brbase (fld w 17 6) (fld w 11 6) (fld w 5 6), fld w 0 5 == 0)
  | 27 => some (.bradv (fld w 17 6), fld w 0 17 == 0)
  | 28 => some (.brcmp (fld w 17 6) (fld w 11 6) (fld w 5 6) (fld w 0 5), true)
  | 29 => some (.rcsnap (fld w 17 6) (fld w 11 6) (fld w 5 6) (fld w 0 5), true)
  | 30 => some (.rcinc (fld w 17 6) (fld w 11 6) (fld w 5 6), fld w 0 5 == 0)
  | 31 => some (.amred (fld w 17 6) (fld w 11 6) (fld w 5 6) (fld w 0 5), true)
  | _ => none

/-- Class 0x5 (R83): the instruction that the opcode field names, and whether every field it does not read is 0. -/
def rawF (w : InstrWord) : Option (Instr × Bool) :=
  match (fld w 24 4).toNat with
  | 0 => some (.fencec (fld w 0 16), fld w 16 8 == 0)
  | 1 => some (.fencex (fld w 0 5), fld w 5 19 == 0)
  | 2 => some (.fences (fld w 0 5), fld w 5 19 == 0)
  | 3 => some (.fencef (fld w 18 6) (fld w 12 6) (fld w 6 6), fld w 0 6 == 0)
  | 4 => some (.winset (fld w 18 6) (fld w 12 6), fld w 0 12 == 0)
  | 5 => some (.winrt (fld w 18 6) (fld w 12 6) (fld w 10 2), fld w 0 10 == 0)
  | 6 => some (.wallow (fld w 18 6) (fld w 12 6) (fld w 6 6), fld w 0 6 == 0)
  | 7 => some (.winq (fld w 18 6) (fld w 12 6), fld w 0 12 == 0)
  | 8 => some (.topord (fld w 18 6) (fld w 12 6), fld w 0 12 == 0)
  | 9 => some (.rtchk (fld w 18 6) (fld w 12 6) (fld w 6 6), fld w 0 6 == 0)
  | _ => none

/-- Class 0x6 (R84): the instruction that the opcode field names, and whether every field it does not read is 0. -/
def rawY (w : InstrWord) : Option (Instr × Bool) :=
  match (fld w 22 6).toNat with
  | 0 => some (.trap (fld w 0 10), fld w 10 12 == 0)
  | 1 => some (.sysc (fld w 0 10), fld w 10 12 == 0)
  | 2 => some (.eret, fld w 0 22 == 0)
  | 3 => some (.csrrd (fld w 16 6) (fld w 0 10), fld w 10 6 == 0)
  | 4 => some (.csrwr (fld w 10 6) (fld w 0 10), fld w 16 6 == 0)
  | 5 => some (.csrset (fld w 10 6) (fld w 0 10), fld w 16 6 == 0)
  | 6 => some (.csrclr (fld w 10 6) (fld w 0 10), fld w 16 6 == 0)
  | 7 => some (.nop, fld w 0 22 == 0)
  | 8 => some (.idle (fld w 10 6), fld w 0 10 == 0 && fld w 16 6 == 0)
  | 9 => some (.yield, fld w 0 22 == 0)
  | 10 => some (.park (fld w 10 6), fld w 0 10 == 0 && fld w 16 6 == 0)
  | 11 => some (.exit, fld w 0 22 == 0)
  | 12 => some (.spawn (fld w 16 6) (fld w 10 6) (fld w 0 1), fld w 1 9 == 0)
  | 13 => some (.join (fld w 16 6) (fld w 10 6) (fld w 0 1), fld w 1 9 == 0)
  | 14 => some (.leave (fld w 16 6) (fld w 10 6), fld w 0 10 == 0)
  | 15 => some (.grpq (fld w 16 6) (fld w 10 6) (fld w 0 10), true)
  | 16 => some (.thid (fld w 16 6) (fld w 0 10), fld w 10 6 == 0)
  | 17 => some (.lidx (fld w 16 6) (fld w 0 10), fld w 10 6 == 0)
  | 18 => some (.tlbinv (fld w 10 6) (fld w 0 10), fld w 16 6 == 0)
  | 19 => some (.ctxsw (fld w 16 6) (fld w 10 6), fld w 0 10 == 0)
  | 20 => some (.brkp (fld w 0 10), fld w 10 12 == 0)
  | _ => none

/-- Class 0x7 (R85): the instruction that the opcode field names, and whether every field it does not read is 0. -/
def rawT (w : InstrWord) : Option (Instr × Bool) :=
  match (fld w 22 6).toNat with
  | 0 => some (.tkpush (fld w 16 6) (fld w 10 6) (fld w 4 6) (fld w 0 1), fld w 1 3 == 0)
  | 1 => some (.tkpop (fld w 16 6) (fld w 0 1), fld w 1 15 == 0)
  | 2 => some (.tkdone (fld w 16 6), fld w 0 16 == 0)
  | 3 => some (.tkpeek (fld w 16 6) (fld w 10 6) (fld w 0 4), fld w 4 6 == 0)
  | 4 => some (.jcnt (fld w 16 6) (fld w 10 6) (fld w 4 6), fld w 0 4 == 0)
  | 5 => some (.rngget (fld w 16 6) (fld w 10 6) (fld w 4 6), fld w 0 4 == 0)
  | 6 => some (.schnxt (fld w 16 6) (fld w 10 6), fld w 0 10 == 0)
  | 7 => some (.dlset (fld w 16 6) (fld w 10 6) (fld w 4 6) (fld w 0 1), fld w 1 3 == 0)
  | 8 => some (.dlchk (fld w 16 6) (fld w 10 6), fld w 0 10 == 0)
  | 9 => some (.grdshp (fld w 16 6) (fld w 10 6) (fld w 0 4), fld w 4 6 == 0)
  | 10 => some (.grdval (fld w 16 6) (fld w 10 6) (fld w 0 4), fld w 4 6 == 0)
  | 11 => some (.grdhlth (fld w 16 6) (fld w 10 6), fld w 0 10 == 0)
  | 12 => some (.recmrk (fld w 16 6) (fld w 10 6), fld w 0 10 == 0)
  | 13 => some (.ctkset (fld w 16 6) (fld w 10 6) (fld w 0 1), fld w 1 9 == 0)
  | 14 => some (.ctkchk (fld w 16 6) (fld w 10 6), fld w 0 10 == 0)
  | 15 => some (.lfwd (fld w 16 6) (fld w 10 6) (fld w 4 6), fld w 0 4 == 0)
  | 16 => some (.ldgr (fld w 16 6) (fld w 10 6) (fld w 4 6), fld w 0 4 == 0)
  | 17 => some (.lwgr (fld w 16 6) (fld w 10 6) (fld w 4 6), fld w 0 4 == 0)
  | 18 => some (.lupd (fld w 16 6) (fld w 10 6) (fld w 4 6), fld w 0 4 == 0)
  | 19 => some (.mcld (fld w 16 6) (fld w 10 6) (fld w 4 6), fld w 0 4 == 0)
  | 20 => some (.mcstat (fld w 16 6) (fld w 10 6) (fld w 0 4), fld w 4 6 == 0)
  | _ => none

/-- The command form of an engine word (R88). -/
def rawE (w : InstrWord) : Option (Instr × Bool) :=
  let e := Engine.ofCode (fld w 29 2)
  match (fld w 22 6).toNat with
  | 0 => some (.ecmd e (fld w 16 6) (fld w 10 6) (fld w 0 6), fld w 6 4 == 0)
  | 1 => some (.tplld e (fld w 16 6) (fld w 0 6), fld w 6 10 == 0)
  | 2 => some (.tplrd e (fld w 16 6) (fld w 0 6), fld w 6 10 == 0)
  | 3 => some (.efence e, fld w 0 22 == 0)
  | 4 => some (.ebusy e (fld w 16 6), fld w 0 16 == 0)
  | _ => none

/-- The patch form of an engine word (R87). -/
def rawP (w : InstrWord) : Instr :=
  match Engine.ofCode (fld w 29 2) with
  | .vec => .vx (fld w 22 6) (fld w 16 6) (fld w 0 16)
  | .mat => .mx (fld w 22 6) (fld w 16 6) (fld w 0 16)
  | .cpy => .cx (fld w 22 6) (fld w 16 6) (fld w 0 16)
  | .smp => .sx (fld w 22 6) (fld w 16 6) (fld w 0 16)

/-- The fields of a word, before the field rules. -/
def rawDecode (w : InstrWord) : Option (Instr × Bool) :=
  match (fld w 28 4).toNat with
  | 0 => rawA w
  | 1 => rawI w
  | 2 => rawM w
  | 3 => rawB w
  | 4 => rawS w
  | 5 => rawF w
  | 6 => rawY w
  | 7 => rawT w
  | n => if n % 2 == 0 then some (rawP w, true) else rawE w

/-- The instruction of a word, or the first rule that it breaks (R69, R97). -/
def decodeWord (w : InstrWord) : Except Reject Instr :=
  match rawDecode w with
  | none => .error .unassigned
  | some (i, zeros) =>
    if zeros then
      match i.defect with
      | none => .ok i
      | some r => .error r
    else .error .markedZero

/-- A word from its four bytes, lowest address first (R6). -/
def wordOfBytes (b0 b1 b2 b3 : Byte) : InstrWord := b3 ++ b2 ++ b1 ++ b0

/-- Decoding a byte string: one instruction and the bytes after it. -/
def decodeBytes : List Byte → Except Reject (Instr × List Byte)
  | b0 :: b1 :: b2 :: b3 :: rest =>
    match decodeWord (wordOfBytes b0 b1 b2 b3) with
    | .ok i => .ok (i, rest)
    | .error r => .error r
  | _ => .error .truncated

/-- The four bytes of a word, as memory holds them. -/
def bytesOfWord (w : InstrWord) : List Byte :=
  [w.extractLsb' 0 8, w.extractLsb' 8 8, w.extractLsb' 16 8, w.extractLsb' 24 8]

/-- The host's numbering of a row's bits: bit 0 is the least significant bit of the first word. Every word of this
hardware is 32 bits. -/
def decodeTableWord (nbits w : Nat) : Option Instr :=
  if nbits = 32 then
    match decodeBytes (bytesOfWord (BitVec.ofNat 32 w)) with
    | .ok (i, _) => some i
    | .error _ => none
  else none

/-- A word from the sum of its placed fields. -/
def w32 (n : Nat) : InstrWord := BitVec.ofNat 32 n

/-- A template from the sum of its placed fields. -/
def w128 (n : Nat) : Template := BitVec.ofNat 128 n

/-- A field's value v added at bit lo. -/
def put (v lo acc : Nat) : Nat := acc + v * 2 ^ lo

/-- The word of an instruction (R71–R89). A row without a 32-bit encoding has no word: 0, which decodes to none. -/
def encode : Instr → InstrWord
  | .add d a b k => w32 (put k.toNat 3 (put b.toNat 4 (put a.toNat 10 (put d.toNat 16 0x00000000))))
  | .sub d a b k => w32 (put k.toNat 3 (put b.toNat 4 (put a.toNat 10 (put d.toNat 16 0x00400000))))
  | .mul d a b k => w32 (put k.toNat 3 (put b.toNat 4 (put a.toNat 10 (put d.toNat 16 0x00800000))))
  | .mulh d a b k => w32 (put k.toNat 3 (put b.toNat 4 (put a.toNat 10 (put d.toNat 16 0x00C00000))))
  | .mulhn d a b k => w32 (put k.toNat 3 (put b.toNat 4 (put a.toNat 10 (put d.toNat 16 0x01000000))))
  | .div d a b k => w32 (put k.toNat 3 (put b.toNat 4 (put a.toNat 10 (put d.toNat 16 0x01400000))))
  | .divn d a b k => w32 (put k.toNat 3 (put b.toNat 4 (put a.toNat 10 (put d.toNat 16 0x01800000))))
  | .rem d a b k => w32 (put k.toNat 3 (put b.toNat 4 (put a.toNat 10 (put d.toNat 16 0x01C00000))))
  | .remn d a b k => w32 (put k.toNat 3 (put b.toNat 4 (put a.toNat 10 (put d.toNat 16 0x02000000))))
  | .and d a b k => w32 (put k.toNat 3 (put b.toNat 4 (put a.toNat 10 (put d.toNat 16 0x02400000))))
  | .or d a b k => w32 (put k.toNat 3 (put b.toNat 4 (put a.toNat 10 (put d.toNat 16 0x02800000))))
  | .xor d a b k => w32 (put k.toNat 3 (put b.toNat 4 (put a.toNat 10 (put d.toNat 16 0x02C00000))))
  | .andn d a b k => w32 (put k.toNat 3 (put b.toNat 4 (put a.toNat 10 (put d.toNat 16 0x03000000))))
  | .orn d a b k => w32 (put k.toNat 3 (put b.toNat 4 (put a.toNat 10 (put d.toNat 16 0x03400000))))
  | .shl d a b k => w32 (put k.toNat 3 (put b.toNat 4 (put a.toNat 10 (put d.toNat 16 0x03800000))))
  | .shr d a b k => w32 (put k.toNat 3 (put b.toNat 4 (put a.toNat 10 (put d.toNat 16 0x03C00000))))
  | .shra d a b k => w32 (put k.toNat 3 (put b.toNat 4 (put a.toNat 10 (put d.toNat 16 0x04000000))))
  | .rotl d a b k => w32 (put k.toNat 3 (put b.toNat 4 (put a.toNat 10 (put d.toNat 16 0x04400000))))
  | .rotr d a b k => w32 (put k.toNat 3 (put b.toNat 4 (put a.toNat 10 (put d.toNat 16 0x04800000))))
  | .min d a b k => w32 (put k.toNat 3 (put b.toNat 4 (put a.toNat 10 (put d.toNat 16 0x04C00000))))
  | .max d a b k => w32 (put k.toNat 3 (put b.toNat 4 (put a.toNat 10 (put d.toNat 16 0x05000000))))
  | .minn d a b k => w32 (put k.toNat 3 (put b.toNat 4 (put a.toNat 10 (put d.toNat 16 0x05400000))))
  | .maxn d a b k => w32 (put k.toNat 3 (put b.toNat 4 (put a.toNat 10 (put d.toNat 16 0x05800000))))
  | .cmpeq d a b k => w32 (put k.toNat 3 (put b.toNat 4 (put a.toNat 10 (put d.toNat 16 0x05C00000))))
  | .cmpne d a b k => w32 (put k.toNat 3 (put b.toNat 4 (put a.toNat 10 (put d.toNat 16 0x06000000))))
  | .cmplt d a b k => w32 (put k.toNat 3 (put b.toNat 4 (put a.toNat 10 (put d.toNat 16 0x06400000))))
  | .cmple d a b k => w32 (put k.toNat 3 (put b.toNat 4 (put a.toNat 10 (put d.toNat 16 0x06800000))))
  | .cmpltn d a b k => w32 (put k.toNat 3 (put b.toNat 4 (put a.toNat 10 (put d.toNat 16 0x06C00000))))
  | .cmplen d a b k => w32 (put k.toNat 3 (put b.toNat 4 (put a.toNat 10 (put d.toNat 16 0x07000000))))
  | .sel d a b k => w32 (put k.toNat 3 (put b.toNat 4 (put a.toNat 10 (put d.toNat 16 0x07400000))))
  | .clz d a => w32 (put a.toNat 10 (put d.toNat 16 0x07800000))
  | .ctz d a => w32 (put a.toNat 10 (put d.toNat 16 0x07C00000))
  | .popc d a => w32 (put a.toNat 10 (put d.toNat 16 0x08000000))
  | .brev d a => w32 (put a.toNat 10 (put d.toNat 16 0x08400000))
  | .bswp d a => w32 (put a.toNat 10 (put d.toNat 16 0x08800000))
  | .sext d a w => w32 (put w.toNat 0 (put a.toNat 10 (put d.toNat 16 0x08C00000)))
  | .zext d a w => w32 (put w.toNat 0 (put a.toNat 10 (put d.toNat 16 0x09000000)))
  | .bfx d a b k => w32 (put k.toNat 3 (put b.toNat 4 (put a.toNat 10 (put d.toNat 16 0x09400000))))
  | .bfi d a b k => w32 (put k.toNat 3 (put b.toNat 4 (put a.toNat 10 (put d.toNat 16 0x09800000))))
  | .addsh d a b k s => w32 (put s.toNat 0 (put k.toNat 3 (put b.toNat 4 (put a.toNat 10 (put d.toNat 16 0x09C00000)))))
  | .madd d a b k => w32 (put k.toNat 3 (put b.toNat 4 (put a.toNat 10 (put d.toNat 16 0x0A000000))))
  | .absd d a b k => w32 (put k.toNat 3 (put b.toNat 4 (put a.toNat 10 (put d.toNat 16 0x0A400000))))
  | .addi d a i => w32 (put i.toNat 0 (put a.toNat 10 (put d.toNat 16 0x10000000)))
  | .muli d a i => w32 (put i.toNat 0 (put a.toNat 10 (put d.toNat 16 0x10400000)))
  | .andi d a i => w32 (put i.toNat 0 (put a.toNat 10 (put d.toNat 16 0x10800000)))
  | .ori d a i => w32 (put i.toNat 0 (put a.toNat 10 (put d.toNat 16 0x10C00000)))
  | .xori d a i => w32 (put i.toNat 0 (put a.toNat 10 (put d.toNat 16 0x11000000)))
  | .shli d a c => w32 (put c.toNat 0 (put a.toNat 10 (put d.toNat 16 0x11400000)))
  | .shri d a c => w32 (put c.toNat 0 (put a.toNat 10 (put d.toNat 16 0x11800000)))
  | .shrai d a c => w32 (put c.toNat 0 (put a.toNat 10 (put d.toNat 16 0x11C00000)))
  | .rotli d a c => w32 (put c.toNat 0 (put a.toNat 10 (put d.toNat 16 0x12000000)))
  | .cmpeqi d a i => w32 (put i.toNat 0 (put a.toNat 10 (put d.toNat 16 0x12400000)))
  | .cmplti d a i => w32 (put i.toNat 0 (put a.toNat 10 (put d.toNat 16 0x12800000)))
  | .cmpltni d a i => w32 (put i.toNat 0 (put a.toNat 10 (put d.toNat 16 0x12C00000)))
  | .mini d a i => w32 (put i.toNat 0 (put a.toNat 10 (put d.toNat 16 0x13000000)))
  | .maxi d a i => w32 (put i.toNat 0 (put a.toNat 10 (put d.toNat 16 0x13400000)))
  | .movi h d i => w32 (put i.toNat 0 (put d.toNat 16 (put h.toNat 22 0x14000000)))
  | .movk h d i => w32 (put i.toNat 0 (put d.toNat 16 (put h.toNat 22 0x15000000)))
  | .movn h d i => w32 (put i.toNat 0 (put d.toNat 16 (put h.toNat 22 0x16000000)))
  | .ldb o d a f => w32 (put f.toNat 0 (put a.toNat 8 (put d.toNat 14 (put o.toNat 20 0x20000000))))
  | .ldh o d a f => w32 (put f.toNat 0 (put a.toNat 8 (put d.toNat 14 (put o.toNat 20 0x21000000))))
  | .ldw o d a f => w32 (put f.toNat 0 (put a.toNat 8 (put d.toNat 14 (put o.toNat 20 0x22000000))))
  | .ldd o d a f => w32 (put f.toNat 0 (put a.toNat 8 (put d.toNat 14 (put o.toNat 20 0x23000000))))
  | .ldbs o d a f => w32 (put f.toNat 0 (put a.toNat 8 (put d.toNat 14 (put o.toNat 20 0x24000000))))
  | .ldhs o d a f => w32 (put f.toNat 0 (put a.toNat 8 (put d.toNat 14 (put o.toNat 20 0x25000000))))
  | .ldws o d a f => w32 (put f.toNat 0 (put a.toNat 8 (put d.toNat 14 (put o.toNat 20 0x26000000))))
  | .stb o s a f => w32 (put f.toNat 0 (put a.toNat 8 (put s.toNat 14 (put o.toNat 20 0x27000000))))
  | .sth o s a f => w32 (put f.toNat 0 (put a.toNat 8 (put s.toNat 14 (put o.toNat 20 0x28000000))))
  | .stw o s a f => w32 (put f.toNat 0 (put a.toNat 8 (put s.toNat 14 (put o.toNat 20 0x29000000))))
  | .std o s a f => w32 (put f.toNat 0 (put a.toNat 8 (put s.toNat 14 (put o.toNat 20 0x2A000000))))
  | .pref o a f => w32 (put f.toNat 0 (put a.toNat 8 (put o.toNat 20 0x2B000000)))
  | .bz a f => w32 (put f.toNat 0 (put a.toNat 18 0x30000000))
  | .bnz a f => w32 (put f.toNat 0 (put a.toNat 18 0x31000000))
  | .bltz a f => w32 (put f.toNat 0 (put a.toNat 18 0x32000000))
  | .bgez a f => w32 (put f.toNat 0 (put a.toNat 18 0x33000000))
  | .jmp f => w32 (put f.toNat 0 0x34000000)
  | .jal f => w32 (put f.toNat 0 0x35000000)
  | .jr a => w32 (put a.toNat 18 0x36000000)
  | .loop a e => w32 (put e.toNat 0 (put a.toNat 18 0x37000000))
  | .loopi c e => w32 (put e.toNat 0 (put c.toNat 12 0x38000000))
  | .endl => w32 0x39000000
  | .brkl => w32 0x3A000000
  | .amadd d a b g => w32 (put g.toNat 0 (put b.toNat 5 (put a.toNat 11 (put d.toNat 17 0x40000000))))
  | .amfadd d a b g => w32 (put g.toNat 0 (put b.toNat 5 (put a.toNat 11 (put d.toNat 17 0x40800000))))
  | .ammin d a b g => w32 (put g.toNat 0 (put b.toNat 5 (put a.toNat 11 (put d.toNat 17 0x41000000))))
  | .ammax d a b g => w32 (put g.toNat 0 (put b.toNat 5 (put a.toNat 11 (put d.toNat 17 0x41800000))))
  | .amminn d a b g => w32 (put g.toNat 0 (put b.toNat 5 (put a.toNat 11 (put d.toNat 17 0x42000000))))
  | .ammaxn d a b g => w32 (put g.toNat 0 (put b.toNat 5 (put a.toNat 11 (put d.toNat 17 0x42800000))))
  | .amand d a b g => w32 (put g.toNat 0 (put b.toNat 5 (put a.toNat 11 (put d.toNat 17 0x43000000))))
  | .amor d a b g => w32 (put g.toNat 0 (put b.toNat 5 (put a.toNat 11 (put d.toNat 17 0x43800000))))
  | .amxor d a b g => w32 (put g.toNat 0 (put b.toNat 5 (put a.toNat 11 (put d.toNat 17 0x44000000))))
  | .amxch d a b g => w32 (put g.toNat 0 (put b.toNat 5 (put a.toNat 11 (put d.toNat 17 0x44800000))))
  | .amcas d a b g => w32 (put g.toNat 0 (put b.toNat 5 (put a.toNat 11 (put d.toNat 17 0x45000000))))
  | .amincb d a b g => w32 (put g.toNat 0 (put b.toNat 5 (put a.toNat 11 (put d.toNat 17 0x45800000))))
  | .lda d a g => w32 (put g.toNat 0 (put a.toNat 11 (put d.toNat 17 0x46000000)))
  | .strl a b g => w32 (put g.toNat 0 (put b.toNat 5 (put a.toNat 11 0x46800000)))
  | .waita d a b g => w32 (put g.toNat 0 (put b.toNat 5 (put a.toNat 11 (put d.toNat 17 0x47000000))))
  | .ftset d a b g => w32 (put g.toNat 0 (put b.toNat 5 (put a.toNat 11 (put d.toNat 17 0x47800000))))
  | .ftsetw d a b g => w32 (put g.toNat 0 (put b.toNat 5 (put a.toNat 11 (put d.toNat 17 0x48000000))))
  | .ftget d a g => w32 (put g.toNat 0 (put a.toNat 11 (put d.toNat 17 0x48800000)))
  | .fttry d a b g => w32 (put g.toNat 0 (put b.toNat 5 (put a.toNat 11 (put d.toNat 17 0x49000000))))
  | .phnew d a b => w32 (put b.toNat 5 (put a.toNat 11 (put d.toNat 17 0x49800000)))
  | .phreg d a b => w32 (put b.toNat 5 (put a.toNat 11 (put d.toNat 17 0x4A000000)))
  | .phdrop d a b => w32 (put b.toNat 5 (put a.toNat 11 (put d.toNat 17 0x4A800000)))
  | .pharv d a b g => w32 (put g.toNat 0 (put b.toNat 5 (put a.toNat 11 (put d.toNat 17 0x4B000000))))
  | .phwait d a b g => w32 (put g.toNat 0 (put b.toNat 5 (put a.toNat 11 (put d.toNat 17 0x4B800000))))
  | .pharw d a b g => w32 (put g.toNat 0 (put b.toNat 5 (put a.toNat 11 (put d.toNat 17 0x4C000000))))
  | .phbyt d a b => w32 (put b.toNat 5 (put a.toNat 11 (put d.toNat 17 0x4C800000)))
  | .brbase d a b => w32 (put b.toNat 5 (put a.toNat 11 (put d.toNat 17 0x4D000000)))
  | .bradv d => w32 (put d.toNat 17 0x4D800000)
  | .brcmp d a b g => w32 (put g.toNat 0 (put b.toNat 5 (put a.toNat 11 (put d.toNat 17 0x4E000000))))
  | .rcsnap d a b g => w32 (put g.toNat 0 (put b.toNat 5 (put a.toNat 11 (put d.toNat 17 0x4E800000))))
  | .rcinc d a b => w32 (put b.toNat 5 (put a.toNat 11 (put d.toNat 17 0x4F000000)))
  | .amred d a b g => w32 (put g.toNat 0 (put b.toNat 5 (put a.toNat 11 (put d.toNat 17 0x4F800000))))
  | .fencec m => w32 (put m.toNat 0 0x50000000)
  | .fencex p => w32 (put p.toNat 0 0x51000000)
  | .fences g => w32 (put g.toNat 0 0x52000000)
  | .fencef w a b => w32 (put b.toNat 6 (put a.toNat 12 (put w.toNat 18 0x53000000)))
  | .winset w a => w32 (put a.toNat 12 (put w.toNat 18 0x54000000))
  | .winrt w a i => w32 (put i.toNat 10 (put a.toNat 12 (put w.toNat 18 0x55000000)))
  | .wallow w d a => w32 (put a.toNat 6 (put d.toNat 12 (put w.toNat 18 0x56000000)))
  | .winq w d => w32 (put d.toNat 12 (put w.toNat 18 0x57000000))
  | .topord d a => w32 (put a.toNat 12 (put d.toNat 18 0x58000000))
  | .rtchk d a b => w32 (put b.toNat 6 (put a.toNat 12 (put d.toNat 18 0x59000000)))
  | .trap c => w32 (put c.toNat 0 0x60000000)
  | .sysc c => w32 (put c.toNat 0 0x60400000)
  | .eret => w32 0x60800000
  | .csrrd d n => w32 (put n.toNat 0 (put d.toNat 16 0x60C00000))
  | .csrwr a n => w32 (put n.toNat 0 (put a.toNat 10 0x61000000))
  | .csrset a n => w32 (put n.toNat 0 (put a.toNat 10 0x61400000))
  | .csrclr a n => w32 (put n.toNat 0 (put a.toNat 10 0x61800000))
  | .nop => w32 0x61C00000
  | .idle a => w32 (put a.toNat 10 0x62000000)
  | .yield => w32 0x62400000
  | .park a => w32 (put a.toNat 10 0x62800000)
  | .exit => w32 0x62C00000
  | .spawn d a n => w32 (put n.toNat 0 (put a.toNat 10 (put d.toNat 16 0x63000000)))
  | .join d a c => w32 (put c.toNat 0 (put a.toNat 10 (put d.toNat 16 0x63400000)))
  | .leave d a => w32 (put a.toNat 10 (put d.toNat 16 0x63800000))
  | .grpq d a q => w32 (put q.toNat 0 (put a.toNat 10 (put d.toNat 16 0x63C00000)))
  | .thid d q => w32 (put q.toNat 0 (put d.toNat 16 0x64000000))
  | .lidx d l => w32 (put l.toNat 0 (put d.toNat 16 0x64400000))
  | .tlbinv a q => w32 (put q.toNat 0 (put a.toNat 10 0x64800000))
  | .ctxsw d a => w32 (put a.toNat 10 (put d.toNat 16 0x64C00000))
  | .brkp c => w32 (put c.toNat 0 0x65000000)
  | .tkpush d a b r => w32 (put r.toNat 0 (put b.toNat 4 (put a.toNat 10 (put d.toNat 16 0x70000000))))
  | .tkpop d w => w32 (put w.toNat 0 (put d.toNat 16 0x70400000))
  | .tkdone d => w32 (put d.toNat 16 0x70800000)
  | .tkpeek d a q => w32 (put q.toNat 0 (put a.toNat 10 (put d.toNat 16 0x70C00000)))
  | .jcnt d a b => w32 (put b.toNat 4 (put a.toNat 10 (put d.toNat 16 0x71000000)))
  | .rngget d a b => w32 (put b.toNat 4 (put a.toNat 10 (put d.toNat 16 0x71400000)))
  | .schnxt d a => w32 (put a.toNat 10 (put d.toNat 16 0x71800000))
  | .dlset d a b s => w32 (put s.toNat 0 (put b.toNat 4 (put a.toNat 10 (put d.toNat 16 0x71C00000))))
  | .dlchk d a => w32 (put a.toNat 10 (put d.toNat 16 0x72000000))
  | .grdshp d a t => w32 (put t.toNat 0 (put a.toNat 10 (put d.toNat 16 0x72400000)))
  | .grdval d a t => w32 (put t.toNat 0 (put a.toNat 10 (put d.toNat 16 0x72800000)))
  | .grdhlth d a => w32 (put a.toNat 10 (put d.toNat 16 0x72C00000))
  | .recmrk d a => w32 (put a.toNat 10 (put d.toNat 16 0x73000000))
  | .ctkset d a c => w32 (put c.toNat 0 (put a.toNat 10 (put d.toNat 16 0x73400000)))
  | .ctkchk d a => w32 (put a.toNat 10 (put d.toNat 16 0x73800000))
  | .lfwd d a b => w32 (put b.toNat 4 (put a.toNat 10 (put d.toNat 16 0x73C00000)))
  | .ldgr d a b => w32 (put b.toNat 4 (put a.toNat 10 (put d.toNat 16 0x74000000)))
  | .lwgr d a b => w32 (put b.toNat 4 (put a.toNat 10 (put d.toNat 16 0x74400000)))
  | .lupd d a b => w32 (put b.toNat 4 (put a.toNat 10 (put d.toNat 16 0x74800000)))
  | .mcld d a b => w32 (put b.toNat 4 (put a.toNat 10 (put d.toNat 16 0x74C00000)))
  | .mcstat d a q => w32 (put q.toNat 0 (put a.toNat 10 (put d.toNat 16 0x75000000)))
  | .vx idx sel val => w32 (put val.toNat 0 (put sel.toNat 16 (put idx.toNat 22 0x80000000)))
  | .mx idx sel val => w32 (put val.toNat 0 (put sel.toNat 16 (put idx.toNat 22 0xA0000000)))
  | .cx idx sel val => w32 (put val.toNat 0 (put sel.toNat 16 (put idx.toNat 22 0xC0000000)))
  | .sx idx sel val => w32 (put val.toNat 0 (put sel.toNat 16 (put idx.toNat 22 0xE0000000)))
  | .ecmd e a b i => w32 (put i.toNat 0 (put b.toNat 10 (put a.toNat 16 (put e.code 29 0x90000000))))
  | .tplld e a i => w32 (put i.toNat 0 (put a.toNat 16 (put e.code 29 0x90400000)))
  | .tplrd e a i => w32 (put i.toNat 0 (put a.toNat 16 (put e.code 29 0x90800000)))
  | .efence e => w32 (put e.code 29 0x90C00000)
  | .ebusy e a => w32 (put a.toNat 16 (put e.code 29 0x91000000))
  | _ => 0

/-- The matrix opcodes (R90; field tables R200–R218): the command, and whether every bit its field table does not list is 0. -/
def rawMatrix (t : Template) : Option (Instr × Bool) :=
  match (tfld t 120 8).toNat with
  | 1 => some (.mlds (tfld t 104 16) (tfld t 96 8) (tfld t 80 16) (tfld t 79 1) (tfld t 72 7) (tfld t 66 6), tfld t 0 66 == 0)
  | 2 => some (.mswp (tfld t 104 16), tfld t 0 104 == 0)
  | 3 => some (.mstr (tfld t 104 16) (tfld t 96 8) (tfld t 86 10) (tfld t 76 10) (tfld t 75 1) (tfld t 73 2) (tfld t 65 8) (tfld t 64 1) (tfld t 48 16) (tfld t 34 14) (tfld t 20 14) (tfld t 13 7), tfld t 0 13 == 0)
  | 4 => some (.mzro (tfld t 104 16) (tfld t 96 8), tfld t 0 96 == 0)
  | 5 => some (.mdrn (tfld t 104 16) (tfld t 96 8) (tfld t 86 10) (tfld t 76 10) (tfld t 68 8) (tfld t 52 16) (tfld t 47 5) (tfld t 46 1) (tfld t 43 3) (tfld t 42 1) (tfld t 41 1) (tfld t 40 1) (tfld t 39 1) (tfld t 31 8) (tfld t 7 24), tfld t 0 7 == 0)
  | 6 => some (.mhad (tfld t 104 16), tfld t 0 104 == 0)
  | 7 => some (.mred (tfld t 104 16) (tfld t 103 1), tfld t 0 103 == 0)
  | 8 => some (.mxbw (tfld t 104 16) (tfld t 96 8) (tfld t 80 16) (tfld t 79 1) (tfld t 73 6) (tfld t 67 6) (tfld t 64 3) (tfld t 40 24), tfld t 0 40 == 0)
  | 9 => some (.mxbl (tfld t 104 16) (tfld t 98 6) (tfld t 92 6) (tfld t 91 1) (tfld t 83 8) (tfld t 67 16) (tfld t 66 1), tfld t 0 66 == 0)
  | 10 => some (.mwait (tfld t 104 16), tfld t 0 104 == 0)
  | 11 => some (.mstat (tfld t 104 16) (tfld t 96 8) (tfld t 80 16), tfld t 0 80 == 0)
  | _ => none

/-- The copy opcodes (R90; field tables R233): the command, and whether every bit its field table does not list is 0. -/
def rawCopy (t : Template) : Option (Instr × Bool) :=
  match (tfld t 120 8).toNat with
  | 1 => some (.cpy (tfld t 104 16) (tfld t 96 8) (tfld t 80 16) (tfld t 64 2) (tfld t 0 64), tfld t 66 14 == 0)
  | 2 => some (.cpym (tfld t 104 16) (tfld t 96 8) (tfld t 80 16) (tfld t 64 2) (tfld t 0 64), tfld t 66 14 == 0)
  | 3 => some (.cpyf (tfld t 104 16) (tfld t 96 8) (tfld t 80 16) (tfld t 64 2) (tfld t 0 64), tfld t 66 14 == 0)
  | 4 => some (.cpyt (tfld t 104 16) (tfld t 96 8) (tfld t 80 16) (tfld t 64 2) (tfld t 0 64), tfld t 66 14 == 0)
  | 5 => some (.cpyc (tfld t 104 16) (tfld t 96 8) (tfld t 80 16) (tfld t 64 2) (tfld t 0 64), tfld t 66 14 == 0)
  | 6 => some (.cpyg (tfld t 104 16) (tfld t 96 8) (tfld t 80 16) (tfld t 64 2) (tfld t 0 64), tfld t 66 14 == 0)
  | 7 => some (.cpyr (tfld t 104 16) (tfld t 96 8) (tfld t 80 16) (tfld t 64 2) (tfld t 0 64), tfld t 66 14 == 0)
  | 8 => some (.cpyx (tfld t 104 16) (tfld t 88 16), tfld t 0 88 == 0)
  | _ => none

/-- The sampling opcodes (R90; field tables R311–R322): the command, and whether every bit its field table does not list is 0. -/
def rawSampling (t : Template) : Option (Instr × Bool) :=
  match (tfld t 120 8).toNat with
  | 1 => some (.nten (tfld t 104 16) (tfld t 102 2) (tfld t 94 8) (tfld t 78 16) (tfld t 62 16) (tfld t 60 2) (tfld t 59 1) (tfld t 44 15) (tfld t 30 14) (tfld t 15 15), tfld t 0 15 == 0)
  | 2 => some (.ntoff (tfld t 104 16) (tfld t 102 2), tfld t 0 102 == 0)
  | 3 => some (.ntrd (tfld t 104 16) (tfld t 102 2) (tfld t 94 8) (tfld t 78 16) (tfld t 77 1), tfld t 0 77 == 0)
  | 4 => some (.alb (tfld t 104 16) (tfld t 96 8) (tfld t 80 16) (tfld t 72 8) (tfld t 56 16) (tfld t 41 15) (tfld t 33 8) (tfld t 17 16), tfld t 0 17 == 0)
  | 5 => some (.smpl (tfld t 104 16) (tfld t 96 8) (tfld t 95 1) (tfld t 94 1) (tfld t 88 6) (tfld t 80 8) (tfld t 64 16) (tfld t 56 8) (tfld t 40 16) (tfld t 32 8) (tfld t 16 16) (tfld t 1 15), tfld t 0 1 == 0)
  | 6 => some (.sset (tfld t 104 16) (tfld t 72 32) (tfld t 48 24) (tfld t 24 24) (tfld t 11 13), tfld t 0 11 == 0)
  | 7 => some (.sseed (tfld t 104 16) (tfld t 40 64), tfld t 0 40 == 0)
  | 8 => if tfld t 103 1 == 0 then some (.svarStore (tfld t 104 16) (tfld t 95 8) (tfld t 79 16), tfld t 0 79 == 0)
      else some (.svarLoad (tfld t 104 16) (tfld t 95 8) (tfld t 79 16), tfld t 0 79 == 0)
  | 9 => some (.scnt (tfld t 104 16) (tfld t 72 32), tfld t 0 72 == 0)
  | _ => none

/-- The fields of a template of an engine other than the vector engine (R90). -/
def rawTemplate (e : Engine) (t : Template) : Option (Instr × Bool) :=
  match e with
  | .vec => none
  | .mat => rawMatrix t
  | .cpy => rawCopy t
  | .smp => rawSampling t

/-- The command of a template, or the decode fault's reason (R90, R94, R194). -/
def decodeTemplate (e : Engine) (t : Template) : Except Reject Instr :=
  match rawTemplate e t with
  | none => .error .templateOpcode
  | some (i, zeros) =>
    if zeros then
      match i.defect with
      | none => .ok i
      | some r => .error r
    else .error .templateMarkedZero

/-- The 128-bit template of a matrix, copy or sampling command. -/
def encodeTemplate : Instr → Option Template
  | .mlds cph stile soff depth kn nc => some (w128 (put nc.toNat 66 (put kn.toNat 72 (put depth.toNat 79 (put soff.toNat 80 (put stile.toNat 96 (put cph.toNat 104 (put 1 120 0))))))))
  | .mswp cph => some (w128 (put cph.toNat 104 (put 2 120 0)))
  | .mstr cph otile orow nr acc src stile orient soff kstr koff kn => some (w128 (put kn.toNat 13 (put koff.toNat 20 (put kstr.toNat 34 (put soff.toNat 48 (put orient.toNat 64 (put stile.toNat 65 (put src.toNat 73 (put acc.toNat 75 (put nr.toNat 76 (put orow.toNat 86 (put otile.toNat 96 (put cph.toNat 104 (put 3 120 0))))))))))))))
  | .mzro cph otile => some (w128 (put otile.toNat 96 (put cph.toNat 104 (put 4 120 0))))
  | .mdrn cph itile irow nr otile ooff fmt raw rm hnorm rot sdiv grad nfc seed => some (w128 (put seed.toNat 7 (put nfc.toNat 31 (put grad.toNat 39 (put sdiv.toNat 40 (put rot.toNat 41 (put hnorm.toNat 42 (put rm.toNat 43 (put raw.toNat 46 (put fmt.toNat 47 (put ooff.toNat 52 (put otile.toNat 68 (put nr.toNat 76 (put irow.toNat 86 (put itile.toNat 96 (put cph.toNat 104 (put 5 120 0)))))))))))))))))
  | .mhad cph => some (w128 (put cph.toNat 104 (put 6 120 0)))
  | .mred cph en => some (w128 (put en.toNat 103 (put cph.toNat 104 (put 7 120 0))))
  | .mxbw cph stile soff src p0 np rm seed => some (w128 (put seed.toNat 40 (put rm.toNat 64 (put np.toNat 67 (put p0.toNat 73 (put src.toNat 79 (put soff.toNat 80 (put stile.toNat 96 (put cph.toNat 104 (put 8 120 0))))))))))
  | .mxbl cph p0 np orient otile ooff ofmt => some (w128 (put ofmt.toNat 66 (put ooff.toNat 67 (put otile.toNat 83 (put orient.toNat 91 (put np.toNat 92 (put p0.toNat 98 (put cph.toNat 104 (put 9 120 0)))))))))
  | .mwait cph => some (w128 (put cph.toNat 104 (put 10 120 0)))
  | .mstat cph otile ooff => some (w128 (put ooff.toNat 80 (put otile.toNat 96 (put cph.toNat 104 (put 11 120 0)))))
  | .cpy cph dtile doff xsel xaddr => some (w128 (put xaddr.toNat 0 (put xsel.toNat 64 (put doff.toNat 80 (put dtile.toNat 96 (put cph.toNat 104 (put 1 120 0)))))))
  | .cpym cph dtile doff xsel xaddr => some (w128 (put xaddr.toNat 0 (put xsel.toNat 64 (put doff.toNat 80 (put dtile.toNat 96 (put cph.toNat 104 (put 2 120 0)))))))
  | .cpyf cph dtile doff xsel xaddr => some (w128 (put xaddr.toNat 0 (put xsel.toNat 64 (put doff.toNat 80 (put dtile.toNat 96 (put cph.toNat 104 (put 3 120 0)))))))
  | .cpyt cph dtile doff xsel xaddr => some (w128 (put xaddr.toNat 0 (put xsel.toNat 64 (put doff.toNat 80 (put dtile.toNat 96 (put cph.toNat 104 (put 4 120 0)))))))
  | .cpyc cph dtile doff xsel xaddr => some (w128 (put xaddr.toNat 0 (put xsel.toNat 64 (put doff.toNat 80 (put dtile.toNat 96 (put cph.toNat 104 (put 5 120 0)))))))
  | .cpyg cph dtile doff xsel xaddr => some (w128 (put xaddr.toNat 0 (put xsel.toNat 64 (put doff.toNat 80 (put dtile.toNat 96 (put cph.toNat 104 (put 6 120 0)))))))
  | .cpyr cph dtile doff xsel xaddr => some (w128 (put xaddr.toNat 0 (put xsel.toNat 64 (put doff.toNat 80 (put dtile.toNat 96 (put cph.toNat 104 (put 7 120 0)))))))
  | .cpyx cph tcph => some (w128 (put tcph.toNat 88 (put cph.toNat 104 (put 8 120 0))))
  | .nten cph ch tile off len fmt mode ncol voff vlen => some (w128 (put vlen.toNat 15 (put voff.toNat 30 (put ncol.toNat 44 (put mode.toNat 59 (put fmt.toNat 60 (put len.toNat 62 (put off.toNat 78 (put tile.toNat 94 (put ch.toNat 102 (put cph.toNat 104 (put 1 120 0))))))))))))
  | .ntoff cph ch => some (w128 (put ch.toNat 102 (put cph.toNat 104 (put 2 120 0))))
  | .ntrd cph ch otile ooff clr => some (w128 (put clr.toNat 77 (put ooff.toNat 78 (put otile.toNat 94 (put ch.toNat 102 (put cph.toNat 104 (put 3 120 0)))))))
  | .alb cph atile aoff btile boff k ttile toff => some (w128 (put toff.toNat 17 (put ttile.toNat 33 (put k.toNat 41 (put boff.toNat 56 (put btile.toNat 72 (put aoff.toNat 80 (put atile.toNat 96 (put cph.toNat 104 (put 4 120 0))))))))))
  | .smpl cph otile start asrc p0 atile aoff btile boff ttile toff k => some (w128 (put k.toNat 1 (put toff.toNat 16 (put ttile.toNat 32 (put boff.toNat 40 (put btile.toNat 56 (put aoff.toNat 64 (put atile.toNat 80 (put p0.toNat 88 (put asrc.toNat 94 (put start.toNat 95 (put otile.toNat 96 (put cph.toNat 104 (put 5 120 0))))))))))))))
  | .sset cph tau nmin nmax chk => some (w128 (put chk.toNat 11 (put nmax.toNat 24 (put nmin.toNat 48 (put tau.toNat 72 (put cph.toNat 104 (put 6 120 0)))))))
  | .sseed cph seed => some (w128 (put seed.toNat 40 (put cph.toNat 104 (put 7 120 0))))
  | .svarStore cph otile ooff => some (w128 (put ooff.toNat 79 (put otile.toNat 95 (put cph.toNat 104 (put 8 120 0)))))
  | .svarLoad cph otile ooff => some (w128 (put ooff.toNat 79 (put otile.toNat 95 (put cph.toNat 104 (put 1 103 (put 8 120 0))))))
  | .scnt cph cnt => some (w128 (put cnt.toNat 72 (put cph.toNat 104 (put 9 120 0))))
  | _ => none

end Sys2Proof
end

