-- ==== Sys2Proof/Machine/Numbers.lean ====
section
/-! DEFINITION. Number formats, rounding, conversion and self-describing blocks (02). -/

namespace Sys2Proof

/-! ### Formats (R39) -/

/-- Which codes at the top of a format are not finite. -/
inductive TopCodes where
  | ieee | nanOnly | finite
  deriving DecidableEq, Repr

/-- A floating-point format: widths of exponent and fraction, bias, and its top codes (R39). -/
structure FFmt where
  eb : Nat
  fb : Nat
  bias : Nat
  top : TopCodes
  deriving DecidableEq, Repr

def fp32 : FFmt := ⟨8, 23, 127, .ieee⟩
def bf16 : FFmt := ⟨8, 7, 127, .ieee⟩
def fp16 : FFmt := ⟨5, 10, 15, .ieee⟩
def e4m3 : FFmt := ⟨4, 3, 7, .nanOnly⟩
def e5m2 : FFmt := ⟨5, 2, 15, .ieee⟩
def e2m1 : FFmt := ⟨2, 1, 1, .finite⟩
def fp64 : FFmt := ⟨11, 52, 1023, .ieee⟩

/-- Bits of a code. -/
def FFmt.bits (f : FFmt) : Nat := 1 + f.eb + f.fb

/-- Exponent of the smallest normal value. -/
def FFmt.emin (f : FFmt) : Int := 1 - (f.bias : Int)

/-- The largest finite value as significand and exponent. -/
def FFmt.maxFin (f : FFmt) : Nat × Int :=
  match f.top with
  | .ieee => (2 ^ (f.fb + 1) - 1, (2 ^ f.eb : Nat) - 2 - (f.bias : Int) - f.fb)
  | .nanOnly => (2 ^ (f.fb + 1) - 2, (2 ^ f.eb : Nat) - 1 - (f.bias : Int) - f.fb)
  | .finite => (2 ^ (f.fb + 1) - 1, (2 ^ f.eb : Nat) - 1 - (f.bias : Int) - f.fb)

/-- The value of a code (R39). -/
def FFmt.decode (f : FFmt) (c : Nat) : Fp :=
  let frac := c % 2 ^ f.fb
  let ex := c / 2 ^ f.fb % 2 ^ f.eb
  let neg := c / 2 ^ (f.fb + f.eb) % 2 == 1
  let fin : Fp :=
    if ex = 0 then (if frac = 0 then .zero neg else .fin neg frac (f.emin - f.fb))
    else .fin neg (2 ^ f.fb + frac) ((ex : Int) - f.bias - f.fb)
  match f.top with
  | .ieee => if ex = 2 ^ f.eb - 1 then (if frac = 0 then .inf neg else .nan) else fin
  | .nanOnly => if ex = 2 ^ f.eb - 1 && frac = 2 ^ f.fb - 1 then .nan else fin
  | .finite => fin

/-- m shifted so that it counts units of 2^q, where it counted units of 2^e (exact when it fits). -/
def shiftTo (m : Nat) (e q : Int) : Nat := m * 2 ^ (e - q).toNat / 2 ^ (q - e).toNat

/-- The code of a magnitude that the format holds. -/
def FFmt.codeOfMag (f : FFmt) (m : Nat) (e : Int) : Nat :=
  let ex := (m.log2 : Int) + e
  if ex < f.emin then shiftTo m e (f.emin - f.fb)
  else shiftTo m e (ex - f.fb) - 2 ^ f.fb + (ex + f.bias).toNat * 2 ^ f.fb

/-- The code of a value that the format holds; the canonical NaN (R44); R51 where the format has no such value. -/
def FFmt.encode (f : FFmt) (x : Fp) : Nat :=
  let sgn := fun (neg : Bool) => if neg then 2 ^ (f.fb + f.eb) else 0
  let maxc := f.codeOfMag f.maxFin.1 f.maxFin.2
  match x with
  | .zero n => sgn n
  | .fin n m e => sgn n + f.codeOfMag m e
  | .inf n =>
    match f.top with
    | .ieee => sgn n + (2 ^ f.eb - 1) * 2 ^ f.fb
    | .nanOnly => 2 ^ (f.fb + f.eb) - 1
    | .finite => sgn n + maxc
  | .nan =>
    match f.top with
    | .ieee => (2 ^ f.eb - 1) * 2 ^ f.fb + 2 ^ (f.fb - 1)
    | .nanOnly => 2 ^ (f.fb + f.eb) - 1
    | .finite => 0

/-! ### Rounding (R46–R49) -/

/-- A nonzero exact magnitude num/den·2^e with its sign. -/
structure Ex where
  neg : Bool
  num : Nat
  den : Nat
  e : Int
  deriving DecidableEq, Repr

/-- floor(log2 (num/den·2^e)). -/
def Ex.log2 (x : Ex) : Int :=
  let k : Int := (x.num.log2 : Int) - x.den.log2
  (if x.num * 2 ^ (-k).toNat < x.den * 2 ^ k.toNat then k - 1 else k) + x.e

/-- R47 step 1 on the grid of multiples of 2^q: how many units the magnitude rounds to. -/
def roundUnits (x : Ex) (q : Int) (m : RMode) (u : Nat) : Nat :=
  let n := x.num * 2 ^ (x.e - q).toNat
  let d := x.den * 2 ^ (q - x.e).toNat
  let lo := n / d
  let rem := n % d
  if rem = 0 then lo
  else
    match m with
    | .rne => if 2 * rem < d then lo else if d < 2 * rem then lo + 1 else if lo % 2 = 0 then lo else lo + 1
    | .rtz => lo
    | .rup => if x.neg then lo else lo + 1
    | .rdn => if x.neg then lo + 1 else lo
    | .rsto => if u < rem * 2 ^ 32 / d then lo + 1 else lo

/-- a·2^ea ≤ b·2^eb. -/
def magLe (a : Nat) (ea : Int) (b : Nat) (eb : Int) : Bool :=
  let q := min ea eb
  a * 2 ^ (ea - q).toNat ≤ b * 2 ^ (eb - q).toNat

/-- R49: the result above the largest finite value. -/
def overflow (f : FFmt) (m : RMode) (neg : Bool) : Fp :=
  let max : Fp := .fin neg f.maxFin.1 f.maxFin.2
  match f.top with
  | .ieee =>
    match m with
    | .rne => .inf neg
    | .rsto => .inf neg
    | .rtz => max
    | .rup => if neg then max else .inf false
    | .rdn => if neg then .inf true else max
  | _ => max

/-- R47: an exact nonzero value rounded to a format. -/
def roundEx (f : FFmt) (m : RMode) (u : Nat) (x : Ex) : Fp :=
  let q := (if x.log2 < f.emin then f.emin else x.log2) - f.fb
  let y := roundUnits x q m u
  if y = 0 then .zero x.neg
  else if magLe y q f.maxFin.1 f.maxFin.2 then .fin x.neg y q
  else overflow f m x.neg

/-- R47 and R51: an exact value rounded to a format. -/
def roundFp (f : FFmt) (m : RMode) (u : Nat) (x : Fp) : Fp :=
  match x with
  | .fin n a e => roundEx f m u ⟨n, a, 1, e⟩
  | x => x

/-- R47 and R49 for an integer destination: rounding, then the range limits. -/
def roundInt (lo hi : Int) (m : RMode) (u : Nat) (x : Fp) : Int :=
  match x with
  | .nan => 0
  | .zero _ => 0
  | .inf n => if n then lo else hi
  | .fin n a e =>
    let y : Int := roundUnits ⟨n, a, 1, e⟩ 0 m u
    max lo (min hi (if n then -y else y))

/-! ### Exact arithmetic -/

/-- An integer as an exact value. -/
def fpOfInt (i : Int) : Fp := if i = 0 then .zero false else .fin (i < 0) i.natAbs 0

/-- The sign of a value. -/
def Fp.neg : Fp → Bool
  | .nan => false
  | .inf n => n
  | .zero n => n
  | .fin n _ _ => n

/-- A value with its sign changed. -/
def Fp.negate : Fp → Fp
  | .nan => .nan
  | .inf n => .inf !n
  | .zero n => .zero !n
  | .fin n m e => .fin (!n) m e

/-- Whether a value is NaN or infinite. -/
def Fp.nonFinite : Fp → Bool
  | .nan => true
  | .inf _ => true
  | _ => false

/-- Whether a value is NaN. -/
def Fp.isNan : Fp → Bool
  | .nan => true
  | _ => false

/-- The exact product (R45). -/
def Fp.mul : Fp → Fp → Fp
  | .nan, _ => .nan
  | _, .nan => .nan
  | .inf _, .zero _ => .nan
  | .zero _, .inf _ => .nan
  | .inf a, y => .inf (a != y.neg)
  | x, .inf b => .inf (x.neg != b)
  | .zero a, y => .zero (a != y.neg)
  | x, .zero b => .zero (x.neg != b)
  | .fin a m e, .fin b k f => .fin (a != b) (m * k) (e + f)

/-- ±m as an integer. -/
def signedMag (neg : Bool) (m : Nat) : Int := if neg then -(m : Int) else m

/-- The exact sum; a zero sum of operands of opposite sign is −0 under RDN only (R45). -/
def Fp.add (r : RMode) : Fp → Fp → Fp
  | .nan, _ => .nan
  | _, .nan => .nan
  | .inf a, .inf b => if a = b then .inf a else .nan
  | .inf a, _ => .inf a
  | _, .inf b => .inf b
  | .zero a, .zero b => if a = b then .zero a else .zero (r = .rdn)
  | .zero _, y => y
  | x, .zero _ => x
  | .fin a m e, .fin b k f =>
    let q := min e f
    let i := signedMag a (m * 2 ^ (e - q).toNat) + signedMag b (k * 2 ^ (f - q).toNat)
    if i = 0 then .zero (r = .rdn) else .fin (i < 0) i.natAbs q

/-- Round(x + y, f, m). -/
def fadd (f : FFmt) (m : RMode) (x y : Fp) : Fp := roundFp f m 0 (Fp.add m x y)

/-- Round(x·y, f, m). -/
def fmul (f : FFmt) (m : RMode) (x y : Fp) : Fp := roundFp f m 0 (Fp.mul x y)

/-- Round(x·y + z, f, rne), one rounding (R43). -/
def ffma (f : FFmt) (x y z : Fp) : Fp := roundFp f .rne 0 (Fp.add .rne (Fp.mul x y) z)

/-- Round(x / y, f, m): IEEE 754 with R43. -/
def fdiv (f : FFmt) (m : RMode) (x y : Fp) : Fp :=
  match x, y with
  | .nan, _ => .nan
  | _, .nan => .nan
  | .inf _, .inf _ => .nan
  | .zero _, .zero _ => .nan
  | .inf a, y => .inf (a != y.neg)
  | x, .inf b => .zero (x.neg != b)
  | x, .zero b => .inf (x.neg != b)
  | .zero a, y => .zero (a != y.neg)
  | .fin a m1 e1, .fin b m2 e2 => roundEx f m 0 ⟨a != b, m1, m2, e1 - e2⟩

/-- floor(√n), from k bits. -/
def isqrtBits (n : Nat) : Nat → Nat → Nat
  | 0, r => r
  | k + 1, r => isqrtBits n k (if (r + 2 ^ k) * (r + 2 ^ k) ≤ n then r + 2 ^ k else r)

/-- floor(√n). -/
def isqrt (n : Nat) : Nat := isqrtBits n (n.log2 / 2 + 1) 0

/-- A magnitude with a last bit that says whether something lies below: enough for a rounding to nearest. -/
def sticky (neg : Bool) (m : Nat) (inexact : Bool) (e : Int) : Fp :=
  .fin neg (2 * m + if inexact then 1 else 0) (e - 1)

/-- √x with 200 more bits than an even power leaves, and a sticky bit; NaN below zero. -/
def Fp.sqrt : Fp → Fp
  | .nan => .nan
  | .zero n => .zero n
  | .inf n => if n then .nan else .inf false
  | .fin n m e =>
    if n then .nan
    else
      let e' := if e % 2 = 0 then e - 400 else e - 401
      let v := m * 2 ^ (e - e').toNat
      let r := isqrt v
      sticky false r (r * r != v) (e' / 2)

/-- Order of values that are not NaN; −0 equals +0. -/
def Fp.lt (x y : Fp) : Bool :=
  match Fp.add .rne x y.negate with
  | .fin n _ _ => n
  | .inf n => n
  | _ => match x, y with
    | .inf a, .inf b => a && !b
    | _, _ => false

/-- Equality of values that are not NaN; −0 equals +0. -/
def Fp.same (x y : Fp) : Bool :=
  match x, y with
  | .inf a, .inf b => a == b
  | _, _ => match Fp.add .rne x y.negate with
    | .zero _ => true
    | _ => false

/-- R164: VMIN and VMAX order −0 below +0. -/
def Fp.below (x y : Fp) : Bool :=
  match x, y with
  | .zero a, .zero b => a && !b
  | _, _ => x.lt y

/-- R164: the smaller, or the larger, of two values; the other operand when exactly one is NaN. -/
def fmin (x y : Fp) : Fp := if x.isNan then y else if y.isNan then x else if y.below x then y else x
def fmax (x y : Fp) : Fp := if x.isNan then y else if y.isNan then x else if x.below y then y else x

/-- The exact sum of products of a pass (R64, R66): NaN and infinities first; an exact zero is −0 only when every
product is. -/
def sumProducts (ps : List Fp) : Fp :=
  if ps.any (·.isNan) || (ps.any (· == .inf false) && ps.any (· == .inf true)) then .nan
  else if ps.any (· == .inf false) then .inf false
  else if ps.any (· == .inf true) then .inf true
  else
    match ps with
    | [] => .zero false
    | p :: rest => rest.foldl (fun a b => match a, b with
        | .zero x, .zero y => .zero (x && y)
        | a, b => Fp.add .rne a b) p

/-! ### The generator of stochastic bits (R50) -/

/-- R50: Mix. -/
def mix (z : Word) : Word :=
  let z := (z ^^^ (z >>> 30)) * 0xBF58476D1CE4E5B9
  let z := (z ^^^ (z >>> 27)) * 0x94D049BB133111EB
  z ^^^ (z >>> 31)

/-- R50: RandBits. -/
def randBits (seed n : Word) : Word := mix (seed + (n + 1) * 0x9E3779B97F4A7C15)

/-- R50: the 32 bits of a stochastic rounding. -/
def rand32 (seed : Word) (n : Nat) : Nat := (randBits seed (BitVec.ofNat 64 n)).toNat % 2 ^ 32

/-! ### Element types of view rows (R23, R93) -/

/-- Lane width in bytes. -/
def EType.w : EType → Nat
  | .f32 => 4
  | .i32 => 4
  | .n32 => 4
  | .bf16 => 2
  | .f16 => 2
  | .i16 => 2
  | .i8 => 1
  | .n8 => 1

/-- Lanes of a row. -/
def EType.lanes (t : EType) : Nat := 128 / t.w

/-- The floating-point format of an element type. -/
def EType.fmt : EType → Option FFmt
  | .f32 => some fp32
  | .bf16 => some Sys2Proof.bf16
  | .f16 => some fp16
  | _ => none

/-- Whether an integer type is signed. -/
def EType.signed : EType → Bool
  | .i32 => true
  | .i16 => true
  | .i8 => true
  | _ => false

/-- The range of an integer type (R41). -/
def EType.range (t : EType) : Int × Int :=
  if t.signed then (-(2 ^ (8 * t.w - 1) : Nat), (2 ^ (8 * t.w - 1) : Nat) - 1) else (0, (2 ^ (8 * t.w) : Nat) - 1)

/-- The integer of a lane (R41). -/
def EType.int (t : EType) (c : Nat) : Int :=
  if t.signed && 2 ^ (8 * t.w - 1) ≤ c then (c : Int) - (2 ^ (8 * t.w) : Nat) else c

/-- The value of a lane. -/
def EType.val (t : EType) (c : Nat) : Fp :=
  match t.fmt with
  | some f => f.decode c
  | none => fpOfInt (t.int c)

/-- An integer modulo 2^w as a lane. -/
def EType.wrap (t : EType) (i : Int) : Nat := (i % (2 ^ (8 * t.w) : Nat)).toNat

/-- A value converted to a lane: R47, R51, R52. -/
def EType.conv (t : EType) (m : RMode) (u : Nat) (x : Fp) : Nat :=
  match t.fmt with
  | some f => f.encode (roundFp f m u x)
  | none => t.wrap (roundInt t.range.1 t.range.2 m u x)

/-! ### Lanes of a row -/

/-- n bytes of a row from byte i on, as a number. -/
def rowNat (r : Row) (i n : Nat) : Nat := r.toNat / 2 ^ (8 * i) % 2 ^ (8 * n)

/-- Lane l of a row of w-byte lanes. -/
def laneW (w : Nat) (r : Row) (l : Nat) : Nat := rowNat r (w * l) w

/-- Lane l of a row. -/
def EType.lane (t : EType) (r : Row) (l : Nat) : Nat := laneW t.w r l

/-- A row from its lanes of w bytes, lane 0 first. -/
def rowOfLanesNat (w : Nat) : List Nat → Nat
  | [] => 0
  | c :: rest => c % 2 ^ (8 * w) + 2 ^ (8 * w) * rowOfLanesNat w rest

/-- A row from its lanes. -/
def rowOfLanes (w : Nat) (cs : List Nat) : Row := BitVec.ofNat 1024 (rowOfLanesNat w cs)

/-- The byte mask of a row whose lanes of w bytes are enabled as the function says (R28, R161). -/
def byteMaskNat (w : Nat) (en : Nat → Bool) : Nat → Nat
  | 0 => 0
  | l + 1 => byteMaskNat w en l + if en l then (2 ^ w - 1) * 2 ^ (w * l) else 0

/-- The byte mask of enabled lanes. -/
def byteMask (w : Nat) (en : Nat → Bool) : BitVec 128 := BitVec.ofNat 128 (byteMaskNat w en (128 / w))

/-- The bits of the bytes that a byte mask names. -/
def spreadBytes (m : BitVec 128) : Nat → Nat
  | 0 => 0
  | b + 1 => spreadBytes m b + if m.getLsbD b then 255 * 2 ^ (8 * b) else 0

/-- R28: a row with the masked bytes of another. -/
def mergeRow (old new : Row) (m : BitVec 128) : Row :=
  if m = BitVec.allOnes 128 then new
  else
    let k : Row := BitVec.ofNat 1024 (spreadBytes m 128)
    (old &&& ~~~k) ||| (new &&& k)

/-! ### Inline constants (R96) -/

/-- The integer and power constants k0–k39 as exact values, and k63. -/
def constEx (i : Nat) : Fp :=
  if i < 16 then fpOfInt i
  else if i < 24 then fpOfInt (15 - (i : Int))
  else if i < 40 then .fin false 1 ((i : Int) - 32)
  else .fin false 3 (-1)

/-- The reciprocals k40–k55. -/
def constDen (i : Nat) : Nat :=
  ([3, 5, 6, 7, 9, 10, 12, 24, 11, 13, 15, 20, 25, 48, 100, 1000][i - 40]?).getD 1

/-- The irrational constants k56–k62 to 140 fraction bits, cut: π, ln 2, log2 e, √2, 1/√2, 1/√32, e. -/
def constIrr (i : Nat) : Nat :=
  ([0x3243f6a8885a308d313198a2e03707344a40, 0xb17217f7d1cf79abc9e3b39803f2f6af40f,
    0x171547652b82fe1777d0ffda0d23a7d11d6a, 0x16a09e667f3bcc908b2fb1366ea957d3e3ad,
    0xb504f333f9de6484597d89b3754abe9f1d6, 0x2d413cccfe779921165f626cdd52afa7c75,
    0x2b7e151628aed2a6abf7158809cf4f3c762e][i - 56]?).getD 1

/-- R96: constant i as a value to be rounded: a reciprocal is given by its denominator. -/
def constVal (i : Nat) : Ex ⊕ Fp :=
  if i < 40 then .inr (constEx i)
  else if i < 56 then .inl ⟨false, 1, constDen i, 0⟩
  else if i < 63 then .inr (sticky false (constIrr i) true (-140))
  else .inr (constEx 63)

/-- R96: constant i rounded with RNE to an element type. -/
def constLane (t : EType) (i : Nat) : Nat :=
  match constVal i, t.fmt with
  | .inl x, some f => f.encode (roundEx f .rne 0 x)
  | .inl x, none => t.wrap (max t.range.1 (min t.range.2 (roundUnits x 0 .rne 0 : Nat)))
  | .inr v, _ => t.conv .rne 0 v

/-- R159: constant i as a 64-bit operand. -/
def const64 (i : Nat) : Word :=
  match constVal i with
  | .inl x => BitVec.ofNat 64 (roundUnits x 0 .rne 0)
  | .inr v => BitVec.ofInt 64 (roundInt (-(2 ^ 63 : Nat)) ((2 ^ 63 : Nat) - 1) .rne 0 v)

/-! ### Blocks (R53–R61) -/

/-- An element format of a block (R54). -/
inductive BFmt where
  | flt (f : FFmt)
  | int (bits : Nat)
  deriving DecidableEq, Repr

/-- R54: the format of a code; none for a reserved one. -/
def blockFmt (c : Nat) : Option BFmt :=
  match c with
  | 1 => some (.flt bf16)
  | 2 => some (.flt fp16)
  | 3 => some (.flt e4m3)
  | 4 => some (.flt e5m2)
  | 5 => some (.flt e2m1)
  | 6 => some (.int 4)
  | 7 => some (.int 3)
  | 8 => some (.int 8)
  | 9 => some (.flt fp32)
  | _ => none

/-- Bits of an element. -/
def BFmt.bits : BFmt → Nat
  | .flt f => f.bits
  | .int b => b

/-- Elements of a block (R54). -/
def BFmt.n (f : BFmt) : Nat := 496 / f.bits

/-- The value of an element code. -/
def BFmt.decode (f : BFmt) (c : Nat) : Fp :=
  match f with
  | .flt f => f.decode c
  | .int b => fpOfInt (if 2 ^ (b - 1) ≤ c then (c : Int) - (2 ^ b : Nat) else c)

/-- A value rounded to an element code (R47, R51, R52). -/
def BFmt.conv (f : BFmt) (m : RMode) (u : Nat) (x : Fp) : Nat :=
  match f with
  | .flt f => f.encode (roundFp f m u x)
  | .int b => (roundInt (-(2 ^ (b - 1) : Nat)) ((2 ^ (b - 1) : Nat) - 1) m u x % (2 ^ b : Nat)).toNat

/-- The largest value that R60 scales to. -/
def BFmt.max : BFmt → Nat × Int
  | .flt f => f.maxFin
  | .int b => (2 ^ (b - 1) - 1, 0)

/-- FMT of a block given as a 512-bit number, byte 0 in bits [7:0] (R53). -/
def blkFmt (b : Nat) : Nat := b % 32

/-- SCALE of a block (R53). -/
def blkScale (b : Nat) : Nat := b / 256 % 256

/-- R55: the code of element i. -/
def blkElem (f : BFmt) (b i : Nat) : Nat := b / 2 ^ (16 + i * f.bits) % 2 ^ f.bits

/-- A value times 2^k. -/
def Fp.scale (x : Fp) (k : Int) : Fp :=
  match x with
  | .fin n m e => .fin n m (e + k)
  | x => x

/-- R59: the decoded value of element i. -/
def blkVal (f : BFmt) (b i : Nat) : Fp :=
  if blkScale b = 255 then .nan else (f.decode (blkElem f b i)).scale ((blkScale b : Int) - 127)

/-- The larger magnitude of two finite values. -/
def magMax (a : Nat × Int) (x : Fp) : Nat × Int :=
  match x with
  | .fin _ m e => if magLe m e a.1 a.2 then a else (m, e)
  | _ => a

/-- R60: the smallest e with M ≤ max·2^e, searched over k values from lo on. -/
def scaleFrom (M mx : Nat × Int) (lo : Int) : Nat → Int
  | 0 => lo
  | k + 1 => if magLe M.1 M.2 mx.1 (mx.2 + lo) then lo else scaleFrom M mx (lo + 1) k

/-- R60: one block from its source values, each with its 32 random bits; the positions past them are 0 (R56). -/
def encodeBlock (code : Nat) (f : BFmt) (m : RMode) (rot : Bool) (xs : List (Fp × Nat)) : Nat :=
  let M := xs.foldl (fun a x => magMax a x.1) (0, 0)
  let e : Int := if f = .flt fp32 || f = .flt bf16 || M.1 = 0 then 0 else scaleFrom M f.max (-127) 254
  let nf := xs.any (·.1.nonFinite)
  let payload := rowOfBits f.bits (xs.map fun x => f.conv m x.2 (x.1.scale (-e)))
  code + (if rot then 32 else 0) + (if nf then 64 else 0) + (e + 127).toNat * 256 + payload * 2 ^ 16
where
  /-- elements packed from bit 0 on (R55) -/
  rowOfBits (w : Nat) : List Nat → Nat
    | [] => 0
    | c :: rest => c % 2 ^ w + 2 ^ w * rowOfBits w rest

/-- R56: a vector cut into block contents of n values. -/
def chunks {α : Type} (n : Nat) : Nat → List α → List (List α)
  | 0, _ => []
  | _ + 1, [] => []
  | k + 1, xs => xs.take n :: chunks n k (xs.drop n)

/-- R56, R60: a vector as consecutive blocks. -/
def encodeBlocks (code : Nat) (f : BFmt) (m : RMode) (rot : Bool) (xs : List (Fp × Nat)) : List Nat :=
  (chunks f.n xs.length xs).map (encodeBlock code f m rot)

end Sys2Proof
end

