-- ==== Sys2Proof/Machine/State.lean ====
section
/-! DEFINITION. The state of the machine as plain data, and the state after reset. -/

namespace Sys2Proof.Machine
open Sys2Proof

/-! ### Tables and memories -/

/-- A table from numbers to values: keys strictly rising; an unlisted key holds the table's default. -/
structure Tab (α : Type) where
  entries : List (Nat × α) := []
  deriving DecidableEq, Repr

/-- A memory: listed bytes at strictly rising addresses, none of them 0, which is what an unlisted address reads as
(log 3, DESIGN CHOICE); and the protection units that carry a poison mark (R482), rising. -/
structure Mem where
  cells : List Host.Cell := []
  poison : List Nat := []
  deriving DecidableEq, Repr

/-! ### Steps in waiting -/

/-- Whom a step concerns: an agent of a core or a die, the object number, the values it carries, and the operands on
the ports of a functional unit (log 81, DESIGN CHOICE). -/
structure Subject where
  die : Nat := 0
  core : Nat := 0
  slot : Nat := 0
  id : Nat := 0
  n : Nat := 0
  val : Word := 0
  trig : Option VTrig := none
  deriving DecidableEq, Repr

/-- A step that will be taken: an instruction with its subject (log 81, DESIGN CHOICE). -/
structure Ev where
  who : Subject
  op : Instr
  deriving DecidableEq, Repr

/-- The parts of one clk, in the order in which the model takes them (log 10, DEDUCED): what falls due performs; what
goes on by
itself goes on; the cores issue; the players and macro units take their entries and the engines start commands. -/
inductive Phase where
  | land | start | issue | late
  deriving DecidableEq, Repr

/-! ### A slot -/

/-- R14. -/
inductive SlotState where
  | free | ready | active | blocked | parked
  deriving DecidableEq, Repr

/-- What a BLOCKED or PARKED slot waits for (R15, R140–R142, R150). -/
inductive Wait where
  /-- nothing -/
  | none
  /-- the conditions of its next word, tried again when they may have changed; an ACTIVE slot with this wait is held in
  this clk without leaving ACTIVE (R15, R29) -/
  | word
  /-- a translation walk, after which the word is tried again (R444) -/
  | walk
  /-- the answer of a waiting operation, with the number of its pending result (R259) -/
  | answer (id : Nat)
  /-- IDLE: READY from this clk on -/
  | idle (until_ : Nat)
  /-- PARK: the future at this sync-variable offset -/
  | park (offset : Nat)
  /-- EXIT: its landings and loads -/
  | exit
  /-- a double trap (R150) -/
  | dead
  deriving DecidableEq, Repr

/-- KIND of a landing (R34). -/
inductive LandKind where
  | row | latch | store
  deriving DecidableEq, Repr

/-- A fixed-latency result or a mem-slot cistern store on its way (R25, R26, R29) (log 40, DEDUCED). -/
structure Landing where
  /-- issue order in the whole machine -/
  id : Nat
  /-- the clk in which it lands -/
  due : Nat
  kind : LandKind
  /-- latch index of the producing unit -/
  unit : Nat
  /-- destination register-space row -/
  row : Nat
  /-- the result row -/
  data : Row
  /-- bytes of the destination that are written -/
  bytes : BitVec 128
  /-- stored bytes, by cistern offset in store order -/
  cells : List (Nat × Byte)
  /-- the core's count of slot switches at issue: the latch is written while it is unchanged (R24) -/
  sw : Nat
  /-- an entry of the landing record on its way after ERET (R36) -/
  fromRec : Bool
  /-- the word that issued it, which a report of R483 names -/
  pc : Word := 0
  /-- ordering class of a store (R285) -/
  cls : Nat := 0
  /-- the arrival of a VSTA that follows this store (R185): phaser address and byte count -/
  arrival : Option (Word × Nat)
  deriving DecidableEq, Repr

/-- Where a variable-latency result goes. -/
inductive Dest where
  | x (n : Nat)
  | x2 (n m : Nat)
  | row (n : Nat)
  /-- latch b7 only, a load with NW -/
  | latch
  | none
  deriving DecidableEq, Repr

/-- A trap that waits in a destination for its first reader (R128, R188, R263). -/
structure LateTrap where
  cause : Nat
  pc : Word
  val : Word
  info : Word
  deriving DecidableEq, Repr

/-- A variable-latency result in flight (R31, R119, R259). -/
structure Pend where
  id : Nat
  dest : Dest
  /-- a sync operation, counted against the 32 of R259 -/
  sync : Bool
  /-- holds an entry of the vector queue (R157) -/
  vq : Bool
  /-- its acquire: later accesses of the slot wait for it (R288) -/
  acquire : Bool
  /-- the answer has come: the values for x, or the row and its written bytes -/
  answered : Bool
  vals : List Word
  data : Row
  bytes : BitVec 128
  late : Option LateTrap
  /-- replies and acknowledgements that have still to come -/
  left : Nat := 0
  /-- a row's count of slot switches at issue, as for a landing (R24) -/
  sw : Nat := 0
  /-- a VLDT whose blocks have not all come: its trigger, and the blocks so far by their number in the stream, none for a
  poisoned one (R184) -/
  block : Option VTrig := none
  lines : List (Nat × Option Nat) := []
  deriving DecidableEq, Repr

/-- The bit-stream state of a slot: 32 lanes of WIN, CUR and REF (R175). -/
structure BitStream where
  win : Vector Word 32 := Vector.replicate 32 0
  cur : Vector Nat 32 := Vector.replicate 32 0
  ref : Vector Nat 32 := Vector.replicate 32 0
  deriving DecidableEq, Repr

/-- A rotating-barrier binding (R278). -/
structure Binding where
  base : Word := 0
  d : Nat := 0
  iter : Nat := 0
  r0 : Nat := 0
  deriving DecidableEq, Repr

/-- A translation of one page, as a walk gives it (R441, R442): rights R, W and X, privileged-only. -/
structure Page where
  asid : Nat
  /-- first virtual address and size in bytes -/
  va : Nat
  size : Nat
  /-- physical address of the first byte -/
  pa : Nat
  r : Bool
  w : Bool
  x : Bool
  priv : Bool
  deriving DecidableEq, Repr

/-- What a walk gave to the word being issued (R444, R445): a page, or the translation fault (none). -/
structure Xlat where
  va : Nat
  page : Option Page
  deriving DecidableEq, Repr

/-- The state of one sequencer slot (R13). -/
structure Slot where
  st : SlotState := .free
  wait : Wait := .none
  pc : Word := 0
  x : Vector Word 64 := Vector.replicate 64 0
  /-- scalar interlock (R17): registers whose value can be read only from a later clk -/
  lock : List (Nat × Nat) := []
  pend : List Pend := []
  /-- registers marked poisoned by an atomic (R263), or holding a late fault (R128): the trap of their first reader -/
  lateX : List (Nat × LateTrap) := []
  /-- rows holding a late fault (R188) -/
  lateRow : List (Nat × LateTrap) := []
  vw : Vector Word 8 := Vector.replicate 8 0
  /-- SEQ.STAT.INH and PRIV (R109) -/
  inh : Bool := false
  priv : Bool := false
  /-- SEQ.CTL (R30) -/
  dbgp : Bool := false
  chkw : Bool := false
  lands : List Landing := []
  /-- the landing record; `due` holds the remaining clk r (R33, R34) -/
  lrec : List Landing := []
  /-- ERET has returned to a word whose issue starts the record's landings (R36) -/
  armed : Bool := false
  lsDepth : Nat := 0
  lsIdx : Vector Word 6 := Vector.replicate 6 0
  lsTop : Vector Word 6 := Vector.replicate 6 0
  lsEnd : Vector Word 6 := Vector.replicate 6 0
  trapPc : Word := 0
  trapCause : BitVec 6 := 0
  trapVal : Word := 0
  trapInfo : Word := 0
  /-- TRAP.STAT: PLDEPTH and PPRIV (R116) -/
  trapDepth : BitVec 3 := 0
  trapPriv : Bool := false
  trapScr : Vector Word 2 := Vector.replicate 2 0
  bs : BitStream := {}
  bar : Binding := {}
  /-- slot.TASK (R358) -/
  task : Option Nat := none
  /-- guards executed by the task (R403) -/
  guards : Nat := 0
  /-- a PHARW whose arrival has performed, and its phase (R259) -/
  arrived : Option Nat := none
  /-- the address of that PHARW -/
  arrivedAt : Nat := 0
  /-- translations of the word being issued, and of its fetch (R444) -/
  xl : List Xlat := []
  /-- attempts of the versioned read being issued that found an odd VER (R300) -/
  attempts : Nat := 0
  /-- a pre-emption asked this slot to stop at its next point (R38) -/
  stopAsked : Bool := false
  /-- stopped for a save -/
  stopped : Bool := false
  deriving DecidableEq, Repr

/-! ### A core -/

/-- STATE of a tile (R221). -/
inductive TileState where
  | empty | filling | ready | draining
  deriving DecidableEq, Repr

/-- A command that holds a tile (R223). -/
structure Holder where
  cmd : Nat
  writes : Bool
  deriving DecidableEq, Repr

/-- A tile entry (R221) with its holders; `spoiled` once a writing holder faulted or was cancelled. -/
structure Tile where
  ver : BitVec 32 := 0
  state : TileState := .empty
  acc : Bool := false
  size : Nat := 0
  base : Nat := 0
  holders : List Holder := []
  spoiled : Bool := false
  /-- the state that the tile would have without its holders (R220) -/
  prior : TileState := .empty
  deriving DecidableEq, Repr

/-- A scoreboard entry: lines of the cistern, or panels of the transposing buffer (R226, R227). -/
structure SbEntry where
  cmd : Nat
  panels : Bool
  lo : Nat
  hi : Nat
  writes : Bool
  deriving DecidableEq, Repr

/-- A bypass latch (R24): its row and the slot whose result it is; none while invalid. -/
abbrev Latch := Option Row

/-- A weight plane (R191, R201). -/
structure Plane where
  /-- cell kk·32 + j holds this exact value (R64); absent cells are not listed -/
  w : Tab Fp := {}
  /-- the plane is as reset leaves it: its 32 × 32 cells hold exact 0 (R191) -/
  blank : Bool := true
  depth : Nat := 0
  kn : Nat := 32
  nc : Nat := 32
  had : Bool := false
  valid : Bool := true
  /-- undefined since a faulted MLDS (R201, log 16, DESIGN CHOICE): the stamp of its free values -/
  undef : Option Nat := none
  deriving DecidableEq, Repr

/-- A queued command of the matrix, copy or sampling engine (R89). -/
structure Cmd where
  /-- issue order; also the holder and scoreboard number -/
  id : Nat
  t : Template
  /-- template index it was issued from -/
  idx : Nat
  /-- slot that issued it -/
  slot : Nat
  /-- clk of issue -/
  at_ : Nat
  /-- descriptor snapshot of a copy (R235), byte 0 in bits [7:0] -/
  desc : BitVec 512 := 0
  /-- follow-on template of a CPYF (R243) -/
  follow : Template := 0
  /-- issued by an expansion of the macro unit -/
  macro_ : Bool := false
  /-- the mode of the issuer, under which its accesses are made (log 21, DEDUCED) -/
  priv : Bool := false
  /-- token of the issuing work (R431) -/
  token : Nat := 0
  /-- a copy in the copy log that a save has aborted (R250) -/
  aborted : Bool := false
  /-- bytes that the command wrote before a save stopped it (R198, R220) -/
  bytes : Nat := 0
  /-- position within the command: rows, panels or clk already done (R220), draws (R323) -/
  pos : Nat := 0
  /-- the sample count that a drain divides by (R308) -/
  count : Nat := 0
  /-- CPYC: encoding has finished (R250) -/
  staged : Bool := false
  deriving DecidableEq, Repr

/-- A started command: when its lane frees and it completes, the fault it met and the bytes it wrote. -/
structure Run where
  cmd : Cmd
  start : Nat
  laneFree : Nat
  /-- clk in which it completes; of a copy with other ends, the clk from which its lines move (R239) -/
  done : Nat
  fault : Nat := 0
  bytes : Nat := 0
  /-- acknowledgements of posted writes that completion still waits for (R240) -/
  acks : Nat := 0
  /-- a copy: cores that a CPYM writes (R242), lines read and not yet written, and its source lines as they stood at its
  start, where that matters (R238); none for a poisoned one -/
  hosts : List Nat := []
  lines : List (Nat × Nat) := []
  src : List (Option Nat) := []
  /-- completion step reached (R240) -/
  stage : Nat := 0
  /-- a copy: the first address and the bytes of the range that its fault names (R249) -/
  bad : Option (Word × Nat) := none
  /-- clk in which the micro-operation under way ends with its pipeline (R220); of the last one, the completion -/
  opEnd : Nat := 0
  deriving DecidableEq, Repr

/-- The matrix engine of a core (R191–R218). -/
structure Matrix where
  queue : List Cmd := []
  running : List Run := []
  active : Plane := {}
  shadow : Plane := {}
  redundant : Bool := false
  completed : Nat := 0
  lastFault : Nat := 0
  lastInfo : Word := 0
  /-- clk from which the load lane and the stream lane are free -/
  loadFree : Nat := 0
  streamFree : Nat := 0
  deriving DecidableEq, Repr

/-- The copy engine of a core (R232). -/
structure Copy where
  queue : List Cmd := []
  flight : List Run := []
  /-- the clk in which the cistern port last read a line for a copy, and the one in which it last wrote one (R239) -/
  portOut : Nat := 0
  portIn : Nat := 0
  /-- CPYXs that wait: the completion phaser, and the copies that have still to stop (R248) -/
  cancels : List (Nat × List Nat) := []
  /-- copies that a save has cancelled, for the copy log (R250) -/
  aborted : List Cmd := []
  deriving DecidableEq, Repr

/-- A channel of the norm tracker (R309) with the region it watches, in bytes. -/
structure NormCh where
  bad : Bool := false
  act : Bool := false
  fmt : Nat := 0
  rows : Bool := false
  vlen : Nat := 0
  voff : Nat := 0
  ncol : Nat := 0
  lo : Nat := 0
  len : Nat := 0
  deriving DecidableEq, Repr

/-- The sampling and norm engine of a core (R302–R309). -/
structure Sampling where
  queue : List Cmd := []
  running : Option Run := none
  sum : Word := 0
  cnt : BitVec 32 := 0
  var : Word := 0
  tau : BitVec 32 := 0x3C23D70A
  nmin : BitVec 24 := 32
  nmax : BitVec 24 := 4096
  seed : Word := 0
  chk : BitVec 13 := 256
  q : Word := 0
  /-- SMP.STAT fields -/
  statK : Nat := 0
  statTile : Nat := 0
  tvalid : Bool := false
  run : Bool := false
  done : Bool := false
  reason : Nat := 0
  /-- FCNT entries: valid, tile, count -/
  fcnt : Vector (Bool × Nat × Nat) 8 := Vector.replicate 8 (false, 0, 0)
  stops : Nat := 0
  ch : Vector NormCh 4 := Vector.replicate 4 {}
  /-- the FP32 sums; unlisted: +0 -/
  sums : Tab (BitVec 32) := {}
  /-- sums with an uncorrectable error (R304) -/
  sumsBad : List Nat := []
  /-- elements counted in this clk, newest first: 0 of a matrix, 1 of a copy and 2 of a mem-slot write, the sum, and the value; they
  are added in that order at its end (R310) -/
  adds : List (Nat × Nat × Fp) := []
  deriving DecidableEq, Repr

/-- An entry of the combining buffer (R297). -/
structure CombEntry where
  id : Nat
  win : Nat
  cls : Nat
  /-- line offset within the window -/
  line : Nat
  data : BitVec 512
  bytes : BitVec 64
  slots : List Nat
  opened : Nat
  /-- its sequence number (R341) -/
  seq : Nat := 0
  /-- writing slots that have since issued a FENCES or a release (R298) -/
  fenced : List Nat := []
  /-- position in the issue order of the word that opened it -/
  pc : Word
  deriving DecidableEq, Repr

/-! ### Places, requests and packets -/

/-- Where a byte is once its address is decoded and translated (R438, R443, R336). -/
inductive Loc where
  /-- offset in the cistern of a core of a die -/
  | cistern (die core off : Nat)
  /-- byte of a die's HBM -/
  | hbm (die off : Nat)
  /-- host physical address -/
  | host (addr : Nat)
  /-- offset in a die's sync-variable region -/
  | sync (die off : Nat)
  /-- offset in the constant store -/
  | const (off : Nat)
  deriving DecidableEq, Repr

/-- An operation of the sync engine or the wellhead on its way to its home, or waiting there (R251, R259): the
instruction, the values of its operands, and who asked. -/
structure SyncReq where
  /-- number of the pending result it answers -/
  id : Nat
  op : Instr
  die : Nat
  core : Nat
  slot : Nat
  asid : Nat
  pc : Word
  loc : Loc
  a : Word := 0
  b : Word := 0
  d : Word := 0
  /-- AMRED: the source lanes; TKPUSH: the record in the low 512 bits -/
  data : Row := 0
  /-- PHREG, PHDROP: members; PHARV, PHARW, PHWAIT: the phase waited for -/
  n : Nat := 0
  /-- a relative barrier operand (R279) -/
  rel : Bool := false
  /-- the arrival of a PHARW has performed (R259) -/
  arrived : Bool := false
  /-- the window it goes through -/
  win : Option Nat := none
  deriving DecidableEq, Repr

/-- What a packet asks for (R325, R339). -/
inductive PktKind where
  /-- a posted write of a slot: line, byte mask -/
  | posted
  /-- a flag write of FENCEF -/
  | flag
  /-- a line of a copy: 0 to be written, 1 + XARG to be combined (R247) -/
  | copyLine (red : Nat)
  /-- a read of a line of a copy -/
  | copyRead (line : Nat)
  /-- a remote load from one line, sign-extended or not: first byte in the line, bytes, and first byte of the destination -/
  | load (signed : Bool) (parts : List (Nat × Nat × Nat))
  /-- a class 0x4 operation, or a remote push -/
  | sync (r : SyncReq)
  /-- an arrival at a phaser: bytes; of a copy, or of a VSTA -/
  | arrival (n : Nat) (copy : Bool)
  /-- a line of an RCSNAP (R282) -/
  | snap
  /-- a completion bit, a guard stop, a token or another gang-wide message (16) -/
  | gang (code : Nat) (a b : Word)
  deriving DecidableEq, Repr

/-- A packet in the fabric (R325, R327, R331). -/
structure Packet where
  id : Nat
  kind : PktKind
  die : Nat
  core : Nat
  /-- the slot; for a posted write the sum of 2^i over its writing slots i -/
  slot : Nat
  asid : Nat
  win : Nat
  cls : Nat
  /-- sequence number of a posted or flag write (R341), and the setting of the window that it belongs to -/
  seq : Nat
  gen : Nat := 0
  route : Word
  ridx : Nat
  /-- the die it is at, the segment it travels and the hops of it already made -/
  at_ : Nat
  seg : Nat := 0
  hop : Nat := 0
  vc : Nat := 0
  /-- the hops made, newest first: the die left, the direction, and the class used; a reply retraces them (R325) -/
  path : List (Nat × Nat × Nat) := []
  /-- a reply, an acknowledgement or a bounce -/
  back : Bool := false
  target : Loc
  data : BitVec 512 := 0
  bytes : BitVec 64 := 0
  /-- answer values of a reply -/
  vals : List Word := []
  row : Row := 0
  /-- reason word of a request that ended in error (R330), 0 for none -/
  reason : Nat := 0
  late : Option LateTrap := none
  /-- the pending result, copy run or combining entry that it belongs to -/
  owner : Nat := 0
  pc : Word := 0
  addr : Word := 0
  deriving DecidableEq, Repr

/-- The descriptor of a window and what the device keeps with it (R335, R340–R342). -/
structure Window where
  routes : Vector Word 4 := Vector.replicate 4 0
  ctrl : Word := 0
  base : Word := 0
  limit : Word := 0
  gang : Bool := false
  err : Bool := false
  reason : Nat := 0
  out : Nat := 0
  /-- number of its last WINSET, with which its sequences begin anew (log 27, DEDUCED), and next sequence number of each
class -/
  gen : Nat := 0
  seq : Tab Nat := {}
  deriving DecidableEq, Repr

/-- A sequence of posted writes as its target sees it (R341). -/
structure SeqState where
  die : Nat
  core : Nat
  win : Nat
  gen : Nat := 0
  cls : Nat
  next : Nat
  /-- writes that ended in error and will not come -/
  lost : List Nat := []
  /-- writes held for an earlier one, with the clk of their arrival -/
  held : List (Packet × Nat) := []
  deriving DecidableEq, Repr

/-- A request that waits for its reply at its source, with the clk by which it must come (R331). -/
structure Await where
  pkt : Packet
  until_ : Nat
  deriving DecidableEq, Repr

/-- An arrival of a VSTA that has still to be delivered (R185). -/
structure VArrival where
  id : Nat
  slot : Nat
  /-- the phaser address, the byte count and the ordering class -/
  addr : Word
  n : Nat
  cls : Nat
  /-- the posted writes that it follows: window and sequence number -/
  gates : List (Nat × Nat) := []
  deriving DecidableEq, Repr

/-- CORE.PART (R18). -/
structure Part where
  accg : Nat := 64
  scrg : Nat := 160
  regg : Nat := 32
  deriving DecidableEq, Repr

/-- A template entry: the template, the address of a poisoned load, and the loads in flight in issue order (R153). -/
structure TemplateEntry where
  t : Template := 0
  poisoned : Option Word := none
  loading : List (Template × Option Word) := []
  deriving DecidableEq, Repr

/-! ### The macro unit and the trace player -/

/-- An accepted expansion (R420). -/
structure Expansion where
  /-- 0 LFWD, 1 LDGR, 2 LWGR, 3 LUPD -/
  kind : Nat
  addr : Word
  p : Nat
  n : Nat
  token : Nat
  /-- the leader: core, slot, number of its pending result and of members still to report -/
  lcore : Nat
  lslot : Nat
  lid : Nat
  /-- the leader's mode and ASID, under which its accesses are made -/
  asid : Nat
  priv : Bool
  deriving DecidableEq, Repr

/-- The running expansion (R414, R421). -/
structure Expanding where
  e : Expansion
  upc : Nat
  /-- micro-loops, innermost first: count, index, top -/
  loops : List (Nat × Nat × Nat) := []
  mr : Vector Word 16 := Vector.replicate 16 0
  desc : List Byte := []
  /-- commands it issued: engine number and command number -/
  cmds : List (Nat × Nat) := []
  /-- elements that the OPT under way has done (R423, R427) -/
  opt : Nat := 0
  code : Nat := 0
  /-- END or a fault has been reached -/
  ended : Bool := false
  deriving DecidableEq, Repr

/-- The macro unit of a core (R414). -/
structure Macro where
  store : Tab Word := {}
  /-- poisoned store entries -/
  poisoned : List Nat := []
  queue : List Expansion := []
  run : Option Expanding := none
  lcode : Nat := 0
  deriving DecidableEq, Repr

/-- KIND of a trace entry (R396). -/
inductive TraceKind where
  | done | end_ | template | phwait | pharv | waitn | call | guard | mark
  deriving DecidableEq, Repr

/-- A trace entry (R396). -/
structure TraceEntry where
  kind : TraceKind
  a : Template := 0
  b : Word := 0
  /-- TEMPLATE: engine; GUARD: kind and tag -/
  aux : Nat := 0
  tag : Nat := 0
  node : Nat := 0
  stall : Nat := 0
  ph : Nat := 0
  deriving DecidableEq, Repr

/-- A trace part (R394, R396). -/
structure TracePart where
  core : Nat
  version : Nat := 0
  entries : List TraceEntry
  grants : List (Word × Word) := []
  deriving DecidableEq, Repr

/-- The trace player of a core (R397, R399, R401). -/
structure Player where
  act : Bool := false
  gid : Nat := 0
  part : Option TracePart := none
  cur : Nat := 0
  grant : Nat := 0
  /-- the call whose TKDONE it waits for -/
  call : Option Nat := none
  /-- stops at its next task boundary (R407) -/
  stopping : Bool := false
  stopped : Bool := false
  deriving DecidableEq, Repr

/-! ### Contexts -/

/-- The resident context of a core (R433, R435, R436, R446). -/
structure Context where
  valid : Bool := false
  prio : BitVec 4 := 0
  asid : BitVec 12 := 0
  /-- XLT.ROOT.ROOT (R436) -/
  root : BitVec 45 := 0
  /-- sync grant in 64 KiB units, job grant, deadline grant, gang id -/
  slo : Nat := 0
  shi : Nat := 0
  jobs : BitVec 256 := 0
  dlc : BitVec 64 := 0
  gang : BitVec 16 := 0
  deriving DecidableEq, Repr

/-- How far a context switch has come (R450). -/
inductive SwitchStep where
  | stopping | closed | copied | installed
  deriving DecidableEq, Repr

/-- A context switch in progress on a core (R448, R450). -/
structure Switch where
  op : Nat
  rst : Bool
  cph : Nat
  save : Nat
  inp : Nat
  stat : Nat
  /-- clk in which CTXSW issued, and TIME.NS then (R449) -/
  start : Nat
  startNs : Nat := 0
  /-- clk in which the save started (R450 step 3) -/
  closedAt : Nat := 0
  step : SwitchStep := .stopping
  hstop : Nat := 0
  /-- CODE so far (R449) -/
  code : Nat := 0
  deriving DecidableEq, Repr

/-- What a save keeps of the parts whose layout the save area leaves open (R454): engine entries, the copy log, the macro
unit, the player, and what no section of a slot holds. The save area names it by its number. -/
structure SaveSide where
  die : Nat := 0
  core : Nat := 0
  mat : List Cmd := []
  cpy : List Cmd := []
  smp : List Cmd := []
  macro_ : Macro := {}
  player : Player := {}
  norm : Sampling := {}
  /-- commands completed, code and description of the last fault of the matrix engine (R218) -/
  matDone : Nat × Nat × Word := (0, 0, 0)
  panelsBad : List Nat := []
  tmpl : Tab TemplateEntry := {}
  slots : Vector Slot 4 := Vector.replicate 4 {}
  deriving DecidableEq, Repr

/-- The state of one core. -/
structure Core where
  slots : Vector Slot 4 := Vector.replicate 4 {}
  /-- the slot that was ACTIVE last (R16) and the clk until which a change of slot holds issue -/
  last : Nat := 0
  switching : Option (Nat × Nat) := none
  /-- switches so far (R24) -/
  sw : Nat := 0
  part : Part := {}
  /-- TRAP.VEC.ADDR (R117) -/
  trapVec : BitVec 62 := 0
  latch : Vector Latch 8 := Vector.replicate 8 none
  cistern : Mem := {}
  /-- template stores: engine·64 + index -/
  tmpl : Tab TemplateEntry := {}
  tiles : Tab Tile := {}
  sb : List SbEntry := []
  /-- entries released in a clk, which are free in the next one (R229): the clk and their number -/
  sbFreed : Nat × Nat := (0, 0)
  /-- lines of mem-slot stores that performed in a clk (R230): the clk and the lines -/
  stored : Nat × List Nat := (0, [])
  mat : Matrix := {}
  /-- transposing buffer: panel·1,024 + row·32 + column -> BF16 code (R208) -/
  panels : Tab (BitVec 16) := {}
  /-- its 64-bit words that carry the poison syndrome, rising (R480, R482) -/
  panelsBad : List Nat := []
  cpy : Copy := {}
  smp : Sampling := {}
  comb : List CombEntry := []
  wins : Vector Window 64 := Vector.replicate 64 {}
  /-- SCOPE.SG: KIND and GROUP (R287) -/
  sg : Vector (Nat × Nat) 32 := Vector.ofFn fun i => (if i.val < 5 then i.val else 0, 0)
  turn : BitVec 36 := 0xC30F3C
  tmo : BitVec 20 := 1465
  topo : BitVec 50 := 0
  /-- requests waiting for a reply (R331) -/
  awaits : List Await := []
  /-- arrivals of VSTAs on their way to the sync engine (R185) -/
  arrivals : List VArrival := []
  prefetch : List Nat := []
  temp : Nat := 0
  droop : Nat := 0
  /-- engine health: vector, matrix, copy, sampling (R402) -/
  health : BitVec 4 := 15
  tlb : List Page := []
  macro_ : Macro := {}
  player : Player := {}
  nfPol : Bool := false
  nfOff : BitVec 20 := 0x1000
  nfSeen : Bool := false
  nfSrc : BitVec 2 := 0
  nfToken : BitVec 32 := 0
  ctx : Context := {}
  /-- a nonzero XLT.ROOT has been written since reset (R500) -/
  rooted : Bool := false
  switch : Option Switch := none
  /-- the save has started: nothing enters an engine queue (R450) -/
  closed : Bool := false
  deriving DecidableEq, Repr

/-! ### A die -/

/-- A group: its members by rank, a thread each (R144, R145). -/
structure Group where
  members : List (Nat × Nat) := []
  deriving DecidableEq, Repr

/-- State of a resident record (R351). -/
inductive RecState where
  | waiting | queued | prefetched | running
  deriving DecidableEq, Repr

/-- A resident task record (R350, R351), with what a stroke adds to it (16). -/
structure TaskRec where
  /-- the 64 bytes, byte 0 in bits [7:0] -/
  bits : BitVec 512
  st : RecState
  deps : Nat
  asid : Nat
  /-- the stroke and node it was formed for, with its stroke number -/
  node : Option (Nat × Nat) := none
  /-- core and slot running it -/
  runner : Option (Nat × Nat) := none
  deriving DecidableEq, Repr

/-- Counters of a job on a die (R361). -/
structure Job where
  out : Nat := 0
  infl : Nat := 0
  sent : BitVec 32 := 0
  recv : BitVec 32 := 0
  deriving DecidableEq, Repr

/-- A deadline-class counter (R365): the clk at which it reaches 0 while armed. -/
structure Deadline where
  armed : Bool := false
  at_ : Nat := 0
  exp : Bool := false
  stop : Bool := false
  deriving DecidableEq, Repr

/-- An operation that waits at the sync engine (R259, R265). -/
structure Waiter where
  req : SyncReq
  deriving DecidableEq, Repr

/-- An event posted to the command core (R387, R431, R489). -/
structure Posted where
  kind : Nat
  a : Word
  b : Word
  deriving DecidableEq, Repr

/-! ### Graphs and replay -/

/-- A node entry of a graph image (R382). -/
structure Node where
  entry : Word
  args : Vector Word 4
  kind : Nat
  pure_ : Bool
  die : Nat
  dl : Nat
  pbind : Nat
  aff : Nat
  queue : Nat
  npred : Nat
  succ : List Nat
  deriving DecidableEq, Repr

/-- A graph phaser (R381). -/
structure GPhaser where
  ns : Nat
  nw : Nat
  nsw : Nat
  exp : Word
  deriving DecidableEq, Repr

/-- Mode of a stroke (R389). -/
inductive StrokeMode where
  | idle | record | dynamic | replay | handedOff | stopping
  deriving DecidableEq, Repr

/-- How a node stands in the running stroke. -/
inductive NodeState where
  | done | discarded
  deriving DecidableEq, Repr

/-- A running stroke as a die sees it (R388). -/
structure Stroke where
  token : Nat
  mode : StrokeMode
  key : Word
  desc : List Byte
  /-- the die that accepted the pump -/
  origin : Nat
  /-- the die of the nodes whose DIE is 0xFFFF: the one that accepted the pump of the recording (log 100, DEDUCED) -/
  home : Nat := 0
  /-- nodes of this die whose record waits for a free place in the wellhead (log 53, DEDUCED) -/
  owed : List Nat := []
  /-- nodes of this die that are done or discarded -/
  nodes : Tab NodeState := {}
  /-- completion bits (R397) -/
  bits : List Nat := []
  /-- nodes recorded as calls (R395) -/
  calls : List Nat := []
  /-- RNGGET grants of each core's calls (R396) -/
  grants : Tab (List (Word × Word)) := {}
  /-- what the recorder noted: the core and the entry, in issue order; a CALL entry where a task began -/
  order : List (Nat × TraceEntry) := []
  /-- cores whose trace part has not reached END or a stop, and the parts that still wait for their player -/
  left : List Nat := []
  todo : List TracePart := []
  /-- parts that players have ended or stopped, with the entries that they issued (R471) -/
  issued : List TracePart := []
  /-- a guard stop has occurred (R407) -/
  gstop : Bool := false
  deriving DecidableEq, Repr

/-- An uploaded graph with its parameter slots and strokes (R381, R387). -/
structure Graph where
  asid : Nat
  nparam : Nat
  phbase : Nat
  job : Nat
  nodes : List Node
  phasers : List GPhaser
  shape : List Word
  params : Tab Word := {}
  run : Option Stroke := none
  /-- the pending stroke's patch list, token and origin -/
  pending : Option (List (Nat × Word) × Nat × Nat) := none
  deriving DecidableEq, Repr

/-- A filed trace set, as one die holds it (R394, R410). -/
structure TraceSet where
  asid : Nat
  gid : Nat
  key : Word
  desc : List Byte
  /-- the die of the recorded nodes whose DIE is 0xFFFF (log 100, DEDUCED) -/
  home : Nat := 0
  parts : List TracePart
  /-- versions uploaded and not yet installed (R411) -/
  fresh : List TracePart := []
  /-- last use, for eviction -/
  used : Nat := 0
  deriving DecidableEq, Repr

/-! ### Links -/

/-- A flit in a replay buffer (R485): one packet each (log 18, DESIGN CHOICE). -/
structure Flit where
  seq : Nat
  pkt : Packet
  /-- the receiver holds it damaged -/
  damaged : Bool := false
  /-- parity increments that have failed, and failed resends -/
  incr : Nat := 0
  resend : Nat := 0
  deriving DecidableEq, Repr

/-- A link of a die: LINK.STAT (R487), its replay buffer and its retrain. -/
structure Link where
  st : BitVec 2 := 3
  par : BitVec 16 := 0
  res : BitVec 16 := 0
  rtn : BitVec 4 := 0
  flits : List Flit := []
  seq : Nat := 0
  /-- retrain in progress, with the clk in which it began -/
  retrain : Option Nat := none
  deriving DecidableEq, Repr

/-- The state of one die. -/
structure Die where
  cores : Tab Core := {}
  hbm : Mem := {}
  /-- the sync-variable region (R253) -/
  sync : Mem := {}
  waiters : List Waiter := []
  /-- routing counters: array·64 + counter (R281) -/
  rc : Tab (BitVec 32) := {}
  groups : Tab Group := {}
  recs : Tab TaskRec := {}
  /-- queued handles of each queue, oldest first (R352) -/
  queues : Tab (List Nat) := {}
  /-- queue served last in each priority -/
  served : Vector Nat 4 := Vector.replicate 4 0
  dispPtr : Nat := 0
  spawnPtr : Nat := 0
  dispDev : BitVec 4 := 4
  jobs : Tab Job := {}
  deadlines : Tab Deadline := {}
  posted : List Posted := []
  seqs : List SeqState := []
  graphs : Tab Graph := {}
  traces : List TraceSet := []
  /-- set tokens (R405) -/
  tokens : List Nat := []
  /-- tokens that the command core sets with the end of the clk (R409, R431, log 29, DEDUCED), rising -/
  toSet : List Nat := []
  /-- GR.STAT: GID, STROKE, MODE, GSTOP, CAPOVF, ERR (R389), and the ASID of the latest stroke's graph -/
  grGid : BitVec 8 := 0
  grAsid : BitVec 12 := 0
  grStroke : BitVec 24 := 0
  grMode : StrokeMode := .idle
  grStop : Bool := false
  capOvf : Bool := false
  grErr : BitVec 8 := 0
  /-- GR.MODE (R392) -/
  gmRefine : Bool := true
  gmCapt : Bool := false
  gmRpl : Bool := true
  gmRec : Bool := true
  grKey : Word := 0
  /-- GR.CAPT: LOG2 and BASE (R413), and the bytes written -/
  captLog : BitVec 6 := 0
  captBase : BitVec 44 := 0
  captPos : Nat := 0
  links : Vector Link 6 := Vector.replicate 6 {}
  /-- PRE.DL (R437), in µs -/
  preDl : BitVec 24 := 200
  hub : List Page := []
  /-- RDY (R493) -/
  rdy : BitVec 22 := 0
  /-- FLT.BASE and FLT.PTR (R489) -/
  fltBase : BitVec 44 := 0
  fltLog : BitVec 5 := 0
  fltHead : BitVec 21 := 0
  fltTail : BitVec 21 := 0
  fltLost : BitVec 20 := 0
  /-- PWR.STAT (R498) -/
  pwrPkg : BitVec 16 := 0
  pwrDie : BitVec 16 := 0
  pwrMv : BitVec 12 := 400
  pwrMhz : BitVec 12 := 1500
  /-- TIME.NS and the clk at the last change of the operating point (R497) -/
  refNs : Nat := 0
  refClk : Nat := 0
  /-- BOOT.STAT (R495) -/
  fwVer : BitVec 32 := 0
  bootCode : BitVec 8 := 1
  fwDigest : BitVec 256 := 0
  correctable : Nat := 0
  halted : Bool := false
  /-- clk since which some core has reported temperature code 15 (R498) -/
  hotSince : Option Nat := none
  /-- dimensions and datelines that the fabric unit last loaded from the map (R328): DX DY DZ LX LY LZ -/
  fab : Option (Vector Nat 6) := none
  /-- last attestation report (R496) -/
  report : List Byte := []
  deriving DecidableEq, Repr

/-- How the host link has trained (R457) (log 15, DESIGN CHOICE). -/
inductive HostLink where
  | untrained | cxl | pcie
  deriving DecidableEq, Repr

/-- The machine: a torus of dies with their fabric and host, the model's clock, and what will happen next. -/
structure State where
  /-- clk since reset (R2) -/
  clk : Nat := 0
  phase : Phase := .issue
  /-- steps of this clk still to take, in order -/
  now : List Ev := []
  /-- steps that fall due in a later clk, in order of entry -/
  agenda : List (Nat × Ev) := []
  /-- cores that have still to issue in this clk: die and core -/
  turn : List (Nat × Nat) := []
  /-- whom the step being taken concerns -/
  cur : Subject := {}
  /-- stamp of the next free value (log 5, DESIGN CHOICE) -/
  fresh : Nat := 0
  /-- number of the next landing, command, request or packet -/
  ids : Nat := 0
  /-- sizes of the torus: DX, DY, DZ (R332) -/
  dims : Nat × Nat × Nat := (1, 1, 2)
  dies : Tab Die := {}
  /-- host memory (R443) -/
  hostMem : Mem := {}
  hostLink : HostLink := .untrained
  /-- lines of the WAITA watch table (R460) -/
  watch : List Nat := []
  packets : Tab Packet := {}
  /-- what saves keep beside the save areas, by the number that the area holds -/
  saves : Tab SaveSide := {}
  /-- the host platform supplies power (R498) -/
  powered : Bool := true
  deriving DecidableEq, Repr

/-- Why the machine stops. -/
inductive Fault where
  /-- a step of a machine without power, which keeps no state (R498); raised by step; safe -/
  | noPower
  deriving DecidableEq, Repr

/-- Why a step is refused. -/
inductive Refusal where
  /-- an instruction without a meaning yet, by its mnemonic; raised by Dispatch only; safe -/
  | notModelled (mnemonic : String)
  deriving DecidableEq, Repr

/-- The boot thread of a command core at reset (R106, R109; log 1, DESIGN CHOICE, log 2, DESIGN CHOICE): privileged,
ACTIVE on slot 0. -/
def Slot.boot : Slot := { st := .active, pc := 0xFFFF000000000000, priv := true }

/-- The command core at reset. -/
def Core.command : Core := { slots := (Vector.replicate 4 {}).set 0 Slot.boot }

/-- A die at reset: every compute core holds its reset values. -/
def Die.reset : Die := { cores := { entries := [(768, Core.command)] } }

/-- The machine right after reset: one package, dies A and B (log 8, DESIGN CHOICE), about to issue the boot threads. -/
def State.reset : State :=
  { dies := { entries := [(0, Die.reset), (1, Die.reset)] }, turn := [(0, 768), (1, 768)] }
end Sys2Proof.Machine
end

