-- ==== Sys2Proof/Machine/Ops.lean ====
section
/-! DEFINITION. The named operations over tables, memories, registers and waiting steps; fault records; taking a trap
and returning from one. -/

namespace Sys2Proof.Machine
open Sys2Proof

/-- The outcome of a meaning or a step. -/
abbrev Out := Host.Outcome State Fault Refusal

/-! ### Tables -/

/-- The value at a key of a rising list. -/
def assocGet {α : Type} (d : α) : List (Nat × α) → Nat → α
  | [], _ => d
  | (k', v) :: rest, k => if k' = k then v else assocGet d rest k

/-- A rising list with the value at a key replaced. -/
def assocSet {α : Type} : List (Nat × α) → Nat → α → List (Nat × α)
  | [], k, v => [(k, v)]
  | (k', v') :: rest, k, v =>
    if k < k' then (k, v) :: (k', v') :: rest
    else if k = k' then (k, v) :: rest
    else (k', v') :: assocSet rest k v

/-- The value of a table at a key, with the table's default. -/
def Tab.get {α : Type} (t : Tab α) (d : α) (k : Nat) : α := assocGet d t.entries k

/-- A table with the value at a key replaced. -/
def Tab.set {α : Type} (t : Tab α) (k : Nat) (v : α) : Tab α := { entries := assocSet t.entries k v }

/-- A table without a key. -/
def Tab.erase {α : Type} (t : Tab α) (k : Nat) : Tab α := { entries := t.entries.filter fun e => e.1 != k }

/-- The entry at a key, if it is listed. -/
def Tab.find {α : Type} (t : Tab α) (k : Nat) : Option α := (t.entries.find? fun e => e.1 == k).map (·.2)

/-- Element i of a vector, or d beyond its end. -/
def vget {α : Type} {n : Nat} (v : Vector α n) (i : Nat) (d : α) : α := (v[i]?).getD d

/-! ### Memories (log 3, DESIGN CHOICE) -/

/-- The byte at an address: the listed one; an unlisted address reads 0. -/
def Mem.read (m : Mem) (a : Nat) : Byte := assocGet 0 m.cells a

/-- A memory with one byte written: writing 0 removes the entry. -/
def Mem.write (m : Mem) (a : Nat) (b : Byte) : Mem :=
  { m with cells := if b = 0 then m.cells.filter fun c => c.1 != a else assocSet m.cells a b }

/-- n bytes from an address as one number, the lowest address least significant (R6). -/
def Mem.readNat (m : Mem) (a : Nat) : Nat → Nat
  | 0 => 0
  | n + 1 => (m.read a).toNat + 256 * m.readNat (a + 1) n

/-- n bytes of a number written from an address on (R6). -/
def Mem.writeNat (m : Mem) (a : Nat) : Nat → Nat → Mem
  | 0, _ => m
  | n + 1, v => (m.write a (BitVec.ofNat 8 v)).writeNat (a + 1) n (v / 256)

/-- n bytes from an address. -/
def Mem.readBytes (m : Mem) (a : Nat) : Nat → List Byte
  | 0 => []
  | n + 1 => m.read a :: m.readBytes (a + 1) n

/-- A list of bytes written from an address on. -/
def Mem.writeBytes (m : Mem) (a : Nat) : List Byte → Mem
  | [] => m
  | b :: rest => (m.write a b).writeBytes (a + 1) rest

/-- Bytes written at the addresses given with them, in order. -/
def Mem.writeCells (m : Mem) : List (Nat × Byte) → Mem
  | [] => m
  | (a, b) :: rest => (m.write a b).writeCells rest

/-- The canonical form: addresses strictly rising, no byte 0, poison marks strictly rising. -/
def risingCells : List Host.Cell → Bool
  | [] => true
  | [(_, b)] => b != 0
  | (a, b) :: (a', b') :: rest => b != 0 && decide (a < a') && risingCells ((a', b') :: rest)

/-- Strictly rising numbers. -/
def risingNats : List Nat → Bool
  | a :: b :: rest => decide (a < b) && risingNats (b :: rest)
  | _ => true

/-- R482: a memory in its canonical form. -/
def Mem.wf (m : Mem) : Bool := risingCells m.cells && risingNats m.poison

/-- Insertion into a rising list without repeats. -/
def insertNat : List Nat → Nat → List Nat
  | [], k => [k]
  | a :: rest, k => if k < a then k :: a :: rest else if k = a then a :: rest else a :: insertNat rest k

/-- R482: the units of size u that bytes a to a + n - 1 touch and that are poisoned. -/
def Mem.poisoned (m : Mem) (u a n : Nat) : Bool := m.poison.any fun k => k * u < a + n && a < (k + 1) * u

/-- R482: the poison mark set on the units of size u that bytes a to a + n - 1 touch. -/
def Mem.spoil (m : Mem) (u a n : Nat) : Mem :=
  { m with poison := ((List.range ((a + n - 1) / u + 1 - a / u)).map (· + a / u)).foldl insertNat m.poison }

/-- R482: a write that covers whole units clears their poison. -/
def Mem.clean (m : Mem) (u a n : Nat) : Mem :=
  { m with poison := m.poison.filter fun k => !(a ≤ k * u && (k + 1) * u ≤ a + n) }

/-- R482, R483: bytes written at the addresses given with them; units of size u written whole lose their poison. -/
def Mem.putCells (m : Mem) (u : Nat) (cs : List (Nat × Byte)) : Mem :=
  { m.writeCells cs with
    poison := m.poison.filter fun k => !((List.range u).all fun i => cs.any fun c => c.1 == k * u + i) }

/-- R483: some unit that the bytes touch is poisoned. -/
def Mem.cellsBad (m : Mem) (u : Nat) (cs : List (Nat × Byte)) : Bool := m.poison.any fun k => cs.any fun c => c.1 / u == k

/-- Protection units (R480): cistern and sync SRAM words, HBM words (log 37, DEDUCED). -/
def unitSram : Nat := 8
def unitHbm : Nat := 32

/-! ### Dies, cores and slots -/

/-- A die of the machine. -/
def State.die (s : State) (d : Nat) : Die := s.dies.get Die.reset d

/-- The machine with a die replaced. -/
def State.setDie (s : State) (d : Nat) (x : Die) : State := { s with dies := s.dies.set d x }

/-- The machine with a die changed. -/
def State.modDie (s : State) (d : Nat) (f : Die → Die) : State := s.setDie d (f (s.die d))

/-- A core of a die: 0–767 compute cores, 768 the command core (R147). -/
def Die.core (x : Die) (c : Nat) : Core := x.cores.get (if c = 768 then Core.command else {}) c

/-- A die with a core replaced. -/
def Die.setCore (x : Die) (c : Nat) (k : Core) : Die := { x with cores := x.cores.set c k }

/-- A core of the machine. -/
def State.core (s : State) (d c : Nat) : Core := (s.die d).core c

/-- The machine with a core replaced. -/
def State.setCore (s : State) (d c : Nat) (k : Core) : State := s.modDie d fun x => x.setCore c k

/-- The machine with a core changed. -/
def State.modCore (s : State) (d c : Nat) (f : Core → Core) : State := s.setCore d c (f (s.core d c))

/-- A slot of a core. -/
def Core.slot (k : Core) (i : Nat) : Slot := vget k.slots i {}

/-- A core with a slot replaced. -/
def Core.setSlot (k : Core) (i : Nat) (x : Slot) : Core := { k with slots := k.slots.setIfInBounds i x }

/-- A core with a slot changed. -/
def Core.modSlot (k : Core) (i : Nat) (f : Slot → Slot) : Core := k.setSlot i (f (k.slot i))

/-- A slot of the machine. -/
def State.slot (s : State) (d c i : Nat) : Slot := (s.core d c).slot i

/-- The machine with a slot changed. -/
def State.modSlot (s : State) (d c i : Nat) (f : Slot → Slot) : State := s.modCore d c fun k => k.modSlot i f

/-- The die, core and slot that the step concerns. -/
def State.myDie (s : State) : Die := s.die s.cur.die
def State.here (s : State) : Core := s.core s.cur.die s.cur.core
def State.me (s : State) : Slot := s.slot s.cur.die s.cur.core s.cur.slot

/-- The machine with the die, core or slot that the step concerns changed. -/
def State.upDie (s : State) (f : Die → Die) : State := s.modDie s.cur.die f
def State.upHere (s : State) (f : Core → Core) : State := s.modCore s.cur.die s.cur.core f
def State.upMe (s : State) (f : Slot → Slot) : State := s.modSlot s.cur.die s.cur.core s.cur.slot f

/-- The machine with the subject of the step replaced. -/
def State.as (s : State) (who : Subject) : State := { s with cur := who }

/-! ### Scalar registers -/

/-- R17: x0 reads 0. -/
def Slot.rx (x : Slot) (r : BitVec 6) : Word := if r = 0 then 0 else vget x.x r.toNat 0

/-- R17: a write to x0 is discarded. -/
def Slot.wx (x : Slot) (r : BitVec 6) (v : Word) : Slot :=
  if r = 0 then x else { x with x := x.x.setIfInBounds r.toNat v }

/-- A register of the slot that the step concerns. -/
def State.rx (s : State) (r : BitVec 6) : Word := s.me.rx r

/-- R119: a register written by a word that issues now, readable n clk later. A write removes the mark of R263. -/
def State.wx (s : State) (r : BitVec 6) (v : Word) (n : Nat) : State :=
  s.upMe fun x =>
    if r = 0 then x
    else { x.wx r v with
      lock := (x.lock.filter fun e => e.1 != r.toNat) ++ (if n ≤ 1 then [] else [(r.toNat, s.clk + n)])
      lateX := x.lateX.filter fun e => e.1 != r.toNat }

/-- R68: a program counter holds a multiple of 4 (log 39, DEDUCED). -/
def alignPc (pc : Word) : Word := pc &&& ~~~3

/-- A new program counter (log 39, DEDUCED). -/
def State.goto (s : State) (pc : Word) : State := s.upMe fun x => { x with pc := alignPc pc }

/-- The next word (R68). -/
def State.next4 (s : State) : State := s.goto (s.me.pc + 4)

/-- A word that writes xd and goes on (R121, R123). -/
def State.result (s : State) (d : BitVec 6) (v : Word) (n : Nat) : Out := .next (s.wx d v n).next4

/-! ### Numbers, stamps and steps to come -/

/-- The stamp of a free value, and the machine that will give another one next (log 5, DESIGN CHOICE). -/
def State.stamp (s : State) : State := { s with fresh := s.fresh + 1 }

/-- The machine whose next object number is unused. -/
def State.newId (s : State) : State := { s with ids := s.ids + 1 }

/-- A step that falls due n clk from now. -/
def State.later (s : State) (n : Nat) (e : Ev) : State := { s with agenda := s.agenda ++ [(s.clk + n, e)] }

/-- A step to take in this clk, after those already waiting. -/
def State.soon (s : State) (e : Ev) : State := { s with now := s.now ++ [e] }

/-- Steps to take in this clk, before those already waiting. -/
def State.first (s : State) (es : List Ev) : State := { s with now := es ++ s.now }

/-- An event posted to the command core of a die (R387, R431, R489) (log 75, DEDUCED). -/
def State.post (s : State) (d kind : Nat) (a b : Word) : State :=
  s.modDie d fun x => { x with posted := x.posted ++ [{ kind := kind, a := a, b := b }] }

/-- R409, R431: a token that the command core of a die is to set; token 0 cancels nothing (log 29, DEDUCED). -/
def State.askToken (s : State) (d token : Nat) : State :=
  if token = 0 then s else s.modDie d fun x => { x with toSet := insertNat x.toSet token }

/-- R409: an uncorrectable data fault of work that carries the token of a stroke of the die. -/
def State.strokeFault (s : State) (d token : Nat) : State :=
  if (s.die d).graphs.entries.any fun g => g.2.run.any fun r => r.token == token then s.askToken d token else s

/-- The token of the task that a slot runs (R350); 0 without one. -/
def State.taskToken (s : State) (d c i : Nat) : Nat :=
  (((s.slot d c i).task.bind (s.die d).recs.find).map fun t => (t.bits.extractLsb' 320 32).toNat).getD 0

/-- R409: an uncorrectable data fault that the task of a slot meets. -/
def State.taskFault (s : State) (d c i : Nat) : State := s.strokeFault d (s.taskToken d c i)

/-! ### Watched lines (R265, R280, R460) -/

/-- The 64-byte line of a place. -/
def Loc.line (l : Loc) : Loc :=
  match l with
  | .cistern d c o => .cistern d c (o / 64)
  | .hbm d o => .hbm d (o / 64)
  | .host a => .host (a / 64)
  | .sync d o => .sync d (o / 64)
  | .const o => .const (o / 64)

/-- R460: the snoop of a line reaches its watchers: a line of host memory must have its watch entry. -/
def State.watched (s : State) (l : Loc) : Bool :=
  match l with
  | .host a => s.watch.contains (a / 64)
  | _ => true

/-- The operations that wait for a write to their line: WAITA (R265), and BRCMP for its GEN (R280). -/
def watches (i : Instr) : Bool :=
  match i with
  | .waita _ _ _ _ => true
  | .brcmp _ _ _ _ => true
  | _ => false

/-- R265, R280, R460: a write to a line wakes the watchers of the line: they compare again in this clk. -/
def State.snoop (s : State) (l : Loc) : State :=
  if !s.watched l then s
  else s.first ((s.dies.entries.flatMap fun e => e.2.waiters).filterMap fun w =>
    if watches w.req.op && w.req.loc.line = l.line then
      some { who := { die := w.req.die, core := w.req.core, slot := w.req.slot, id := w.req.id }, op := .waitaWake }
    else none)

/-! ### Fault records (R488, R489) -/

/-- The contents of a fault record (R488). -/
structure Record where
  unit : Nat
  kind : Nat
  action : Nat := 0
  asid : Nat := 0
  va : Option Word := none
  tiles : List Nat := []
  tcore : Nat := 0
  range : Option (Nat × Nat) := none
  d0 : Word := 0
  d1 : Word := 0
  deriving DecidableEq, Repr

/-- TIME.NS: ns since reset by the reference timer of a die, whatever its operating point (R497; log 17, DEDUCED). -/
def State.timeNs (s : State) (d : Nat) : Nat :=
  let x := s.die d
  x.refNs + (s.clk - x.refClk) * 1000 / x.pwrMhz.toNat

/-- The clk of a number of µs at the operating point of a die (R2, R497; log 17, DEDUCED). -/
def State.clkOf (s : State) (d us : Nat) : Nat := us * (s.die d).pwrMhz.toNat

/-- The unit field of a core: class 0 compute core, 1 command core (R488). -/
def unitOfCore (c : Nat) : Nat := if c = 768 then 0x1000 else c

/-- The 64 bytes of a record, as one little-endian number (R488) (log 74, DEDUCED). -/
def Record.bits (r : Record) (time : Nat) : Nat :=
  let pa : Nat × Nat := match r.range with
    | some (a, n) => (a, n)
    | none => (2 ^ 63, 0)
  let t := fun i => (r.tiles[i]?).getD 0 % 256
  time % 2 ^ 64 + r.unit % 2 ^ 16 * 2 ^ 64 + r.kind % 256 * 2 ^ 80 + r.action % 256 * 2 ^ 88 +
  (if r.va.isSome then r.asid % 4096 + 2 ^ 15 else 0) * 2 ^ 96 + (min r.tiles.length 4) * 2 ^ 112 +
  pa.1 % 2 ^ 64 * 2 ^ 128 + pa.2 % 2 ^ 64 * 2 ^ 192 + (r.va.getD 0).toNat * 2 ^ 256 +
  (t 0 + t 1 * 2 ^ 8 + t 2 * 2 ^ 16 + t 3 * 2 ^ 24) * 2 ^ 320 + r.tcore % 2 ^ 16 * 2 ^ 352 +
  r.d0.toNat * 2 ^ 384 + r.d1.toNat * 2 ^ 448

/-- R488: the first byte of a place in a record: its physical address; for a sync variable or a line of a cistern, which have none,
its device-local address, whose bit 63 is 1 (log 95, DEDUCED). -/
def Loc.physical (l : Loc) : Option Nat :=
  match l with
  | .hbm d o => some (d * 2 ^ 39 + o)
  | .host a => some (2 ^ 55 + a)
  | .cistern _ _ o => some (0xFFFF000000000000 + o)
  | .const o => some (0xFFFF030000000000 + o)
  | .sync _ o => some (0xFFFF040000000000 + o)

/-- R488: the range of a record that n bytes of a place give. -/
def Loc.span (l : Loc) (n : Nat) : Option (Nat × Nat) := l.physical.map fun p => (p, n)

/-- R488: the range from the first to the last of some bytes, at distances from a place. -/
def Loc.cellSpan (l : Loc) (cs : List (Nat × Byte)) : Option (Nat × Nat) :=
  match cs with
  | [] => none
  | b :: _ =>
    let lo := cs.foldl (fun m x => min m x.1) b.1
    l.physical.map fun p => (p + lo, cs.foldl (fun m x => max m x.1) b.1 + 1 - lo)

/-- R489: a record written to the ring of a die, or dropped and counted as lost; and its event (log 57, DEDUCED) (log 74,
DEDUCED) (log 75, DEDUCED). -/
def State.record (s : State) (d : Nat) (r : Record) : State :=
  let x := s.die d
  let size := 2 ^ x.fltLog.toNat
  let used := (x.fltTail - x.fltHead).toNat
  if 6 ≤ x.fltLog.toNat && x.fltLog.toNat ≤ 20 && used < size then
    let at_ := (x.fltBase.toNat * 4096) % 2 ^ 39 + (x.fltTail.toNat % size) * 64
    ((s.modDie d fun y => { y with
        hbm := (y.hbm.writeNat at_ 64 (r.bits (s.timeNs d))).clean unitHbm at_ 64
        fltTail := y.fltTail + 1 }).snoop (.hbm d at_)).post d r.kind r.d0 r.d1
  else s.modDie d fun y => { y with fltLost := if y.fltLost.toNat = 2 ^ 20 - 1 then y.fltLost else y.fltLost + 1 }

/-! ### Traps (R33, R149, R150) and the return (R36, R138) -/

/-- What a trap writes: its cause, TRAP.PC, TRAP.VAL and TRAP.INFO (R118). -/
structure Trap where
  cause : Nat
  pc : Word
  val : Word := 0
  info : Word := 0
  deriving DecidableEq, Repr

/-- R33: the outstanding landings of a slot as landing-record entries with their remaining clk. -/
def Slot.capture (x : Slot) (clk : Nat) : List Landing :=
  x.lrec ++ x.lands.map fun l => { l with due := l.due - clk, fromRec := false }

/-- R35: COUNT of SEQ.LREC: entries waiting, and entries of the record on their way. -/
def Slot.lrecCount (x : Slot) : Nat := x.lrec.length + (x.lands.filter (·.fromRec)).length

/-- R149: the trap sequence of a slot whose INH is 0. -/
def Slot.trapped (x : Slot) (t : Trap) (vec : BitVec 62) (clk : Nat) : Slot :=
  { x with
    lrec := x.capture clk
    lands := []
    armed := false
    trapPc := t.pc
    trapCause := BitVec.ofNat 6 t.cause
    trapVal := t.val
    trapInfo := t.info
    trapPriv := x.priv
    trapDepth := BitVec.ofNat 3 x.lsDepth
    priv := true
    inh := true
    pc := vec ++ (0 : BitVec 2)
    wait := .none
    xl := [] }

/-- The physical address of a global address in a translation that the slot or its TLB holds (log 37, DEDUCED). -/
def State.physOf (s : State) (va : Nat) : Option Nat :=
  if s.cur.core = 768 && !s.here.rooted then some va
  else
    ((s.me.xl.filterMap (·.page) ++ s.here.tlb).find? fun p =>
      p.asid == s.here.ctx.asid.toNat && p.va ≤ va && va < p.va + p.size).map fun p => p.pa + (va - p.va)

/-- R482: the report of a poison data trap: an uncorrectable error consumed by a slot (log 37, DEDUCED). -/
def State.poisonRecord (s : State) (t : Trap) : State :=
  if t.cause = 0x09 ∧ t.info = 0 then
    let va := t.val.toNat
    let global := 2 ^ 20 ≤ va && va < 2 ^ 56
    let mapped := global && (s.cur.core != 768 || s.here.rooted)
    (s.taskFault s.cur.die s.cur.core s.cur.slot).record s.cur.die
      { unit := unitOfCore s.cur.core, kind := 0x03, action := 3, asid := s.here.ctx.asid.toNat
        va := if mapped then some t.val else none
        range := if global then (s.physOf va).map fun p => (p / unitHbm * unitHbm, unitHbm)
          else if va < 2 ^ 20 then (Loc.cistern 0 0 (va / unitSram * unitSram)).span unitSram
          else some (va / unitSram * unitSram, unitSram)
        d0 := t.pc, d1 := BitVec.ofNat 64 s.cur.slot }
  else s

/-- Taking a trap on the slot that the step concerns: R149; with INH set, the double trap of R150 (log 57, DEDUCED). -/
def State.trap (s : State) (t : Trap) : State :=
  let s := s.poisonRecord t
  if s.me.inh then
    (s.upMe fun x => { x with st := .blocked, wait := .dead, xl := [] }).record s.cur.die
      { unit := unitOfCore s.cur.core, kind := 0x22, action := 3, asid := s.here.ctx.asid.toNat
        d0 := BitVec.ofNat 64 (s.cur.slot + s.me.trapCause.toNat * 2 ^ 8 + t.cause * 2 ^ 16), d1 := s.me.trapPc }
  else s.upMe fun x => x.trapped t s.here.trapVec s.clk

/-- A meaning that ends in a trap on its own word. -/
def State.raise (s : State) (cause : Nat) (val info : Word) : Out :=
  .next (s.trap { cause := cause, pc := s.me.pc, val := val, info := info })

/-- R138: what ERET restores; the landing record is armed for the word at the saved PC (R36). -/
def Slot.eret (x : Slot) : Slot :=
  { x with priv := x.trapPriv, inh := false, pc := alignPc x.trapPc, armed := !x.lrec.isEmpty }

/-- R118: the cause codes. -/
def causeIllegal : Nat := 0x01
def causeMisalignedPc : Nat := 0x02
def causePrivilege : Nat := 0x03
def causeFetch : Nat := 0x04
def causeTemplate : Nat := 0x05
def causeAlign : Nat := 0x06
def causeXlat : Nat := 0x07
def causeAccess : Nat := 0x08
def causePoison : Nat := 0x09
def causeView : Nat := 0x0A
def causePartition : Nat := 0x0B
def causeEarlyRead : Nat := 0x0C
def causeEarlyCistern : Nat := 0x0D
def causeFormat : Nat := 0x0E
def causeLoopNest : Nat := 0x0F
def causeLoopStack : Nat := 0x10
def causeLoopCount : Nat := 0x11
def causeTrap : Nat := 0x12
def causeSysc : Nat := 0x13
def causeBrkp : Nat := 0x14
def causeContention : Nat := 0x15
def causeScope : Nat := 0x16
def causeRoute : Nat := 0x17
def causeRemote : Nat := 0x18

/-! ### Waiting (R15) -/

/-- The slot that the step concerns becomes BLOCKED at its word. -/
def State.block (s : State) (w : Wait) : State := s.upMe fun x => { x with st := .blocked, wait := w }

/-- A word that cannot issue yet: it has no effect and its slot is BLOCKED. -/
def State.hold (s : State) : Out := .next (s.block .word)

/-- A word that cannot issue in this clk, without its slot leaving ACTIVE (R15, R29). -/
def State.stay (s : State) : Out := .next (s.upMe fun x => { x with wait := .word })

/-- What looking for the operands of a word finds: a value, a trap of the word, the late trap of an
earlier load (R128, R188, R263), a wait, or a translation walk. -/
inductive Ans (α : Type) where
  | ok (a : α)
  | trap (cause : Nat) (val info : Word)
  | late (t : LateTrap)
  | wait
  | walk (va : Nat)
  /-- the VER of a tile was odd when a versioned read looked at it (R300) -/
  | contended (tile : Nat)
  deriving Repr

/-- R444: the walks that the hub of a die runs. -/
def State.walks (s : State) (d : Nat) : Nat := (s.agenda.filter fun e => e.2.op == .translationWalkDone && e.2.who.die == d).length

/-- R444: the slot waits for the walk of an address; the result comes by TRANSLATION_WALK_DONE. While the hub runs 1,024 walks, a further
miss waits for one of them to end. -/
def State.walkFor (s : State) (va : Nat) : State :=
  if 1024 ≤ s.walks s.cur.die then s.block .word
  else
  ((s.block .walk).later (1 + Config.latency s.fresh)
    { who := { s.cur with id := s.here.ctx.root.toNat, val := BitVec.ofNat 64 va }, op := .translationWalkDone }).stamp

/-- The late trap of an earlier access, whose destination keeps its value; its mark goes, of a row with whichever slot
loaded it (R128, R188, R263). -/
def State.lateTrap (s : State) (t : LateTrap) : State :=
  ((s.upMe fun x => { x with lateX := x.lateX.filter fun e => e.2 != t }).upHere fun k =>
    { k with slots := k.slots.map fun x => { x with lateRow := x.lateRow.filter fun e => e.2 != t } }).trap
    { cause := t.cause, pc := t.pc, val := t.val, info := t.info }

/-- R300: an attempt of a versioned read has found an odd VER: the next one follows in the next clk, with the slot still ACTIVE;
after 17 the contention trap (log 13, DESIGN CHOICE). -/
def State.contend (s : State) (tile : Nat) : Out :=
  if 16 ≤ s.me.attempts then s.raise causeContention (BitVec.ofNat 64 tile) 0
  else .next (s.upMe fun x => { x with wait := .word, attempts := x.attempts + 1 })

/-- A word's effect on the value it found, or what stands in its way. -/
def Ans.run {α : Type} (x : Ans α) (s : State) (k : α → Out) : Out :=
  match x with
  | .ok a => k a
  | .trap c v i => s.raise c v i
  | .late t => .next (s.lateTrap t)
  | .wait => s.hold
  | .walk va => .next (s.walkFor va)
  | .contended t => s.contend t

/-- The second search after the first. -/
def Ans.bind {α β : Type} (x : Ans α) (k : α → Ans β) : Ans β :=
  match x with
  | .ok a => k a
  | .trap c v i => .trap c v i
  | .late t => .late t
  | .wait => .wait
  | .walk va => .walk va
  | .contended t => .contended t

/-- The answers of a list in order, up to the first that stands in the way. -/
def Ans.all {α : Type} : List (Ans α) → Ans (List α)
  | [] => .ok []
  | x :: rest => x.bind fun a => (Ans.all rest).bind fun as => .ok (a :: as)

/-- Whether a search waits. -/
def Ans.waits {α : Type} (x : Ans α) : Bool :=
  match x with
  | .wait => true
  | _ => false

/-- The answers of a list whose first fault in order counts before any wait. -/
def Ans.faultsFirst {α : Type} (xs : List (Ans α)) : Ans (List α) :=
  (Ans.all (xs.filter fun x => !x.waits)).bind fun as => if xs.any (·.waits) then .wait else .ok as

/-- The condition of a search. -/
def Ans.need {α : Type} (c : Bool) (bad k : Ans α) : Ans α := if c then k else bad

end Sys2Proof.Machine
end

