-- ==== Sys2Proof/Machine/Operands.lean ====
section
/-! DEFINITION. The operands of words: scalar registers, second operands, effective addresses, views, rows and latches. -/

namespace Sys2Proof.Machine
open Sys2Proof

/-! ### Scalar operands -/

/-- The scalar registers whose values a word reads (its entry). A vector word's broadcasts come with its template. -/
def readsOf : Instr → List (BitVec 6)
  | .add _ a b k => [a] ++ if k then [] else [b]
  | .sub _ a b k => [a] ++ if k then [] else [b]
  | .mul _ a b k => [a] ++ if k then [] else [b]
  | .mulh _ a b k => [a] ++ if k then [] else [b]
  | .mulhn _ a b k => [a] ++ if k then [] else [b]
  | .div _ a b k => [a] ++ if k then [] else [b]
  | .divn _ a b k => [a] ++ if k then [] else [b]
  | .rem _ a b k => [a] ++ if k then [] else [b]
  | .remn _ a b k => [a] ++ if k then [] else [b]
  | .and _ a b k => [a] ++ if k then [] else [b]
  | .or _ a b k => [a] ++ if k then [] else [b]
  | .xor _ a b k => [a] ++ if k then [] else [b]
  | .andn _ a b k => [a] ++ if k then [] else [b]
  | .orn _ a b k => [a] ++ if k then [] else [b]
  | .shl _ a b k => [a] ++ if k then [] else [b]
  | .shr _ a b k => [a] ++ if k then [] else [b]
  | .shra _ a b k => [a] ++ if k then [] else [b]
  | .rotl _ a b k => [a] ++ if k then [] else [b]
  | .rotr _ a b k => [a] ++ if k then [] else [b]
  | .min _ a b k => [a] ++ if k then [] else [b]
  | .max _ a b k => [a] ++ if k then [] else [b]
  | .minn _ a b k => [a] ++ if k then [] else [b]
  | .maxn _ a b k => [a] ++ if k then [] else [b]
  | .cmpeq _ a b k => [a] ++ if k then [] else [b]
  | .cmpne _ a b k => [a] ++ if k then [] else [b]
  | .cmplt _ a b k => [a] ++ if k then [] else [b]
  | .cmple _ a b k => [a] ++ if k then [] else [b]
  | .cmpltn _ a b k => [a] ++ if k then [] else [b]
  | .cmplen _ a b k => [a] ++ if k then [] else [b]
  | .sel d a b k => [a, d] ++ if k then [] else [b]
  | .clz _ a => [a]
  | .ctz _ a => [a]
  | .popc _ a => [a]
  | .brev _ a => [a]
  | .bswp _ a => [a]
  | .sext _ a _ => [a]
  | .zext _ a _ => [a]
  | .bfx _ a b k => [a] ++ if k then [] else [b]
  | .bfi d a b k => [a, d] ++ if k then [] else [b]
  | .addsh _ a b k _ => [a] ++ if k then [] else [b]
  | .madd d a b k => [a, d] ++ if k then [] else [b]
  | .absd _ a b k => [a] ++ if k then [] else [b]
  | .addi _ a _ => [a]
  | .muli _ a _ => [a]
  | .andi _ a _ => [a]
  | .ori _ a _ => [a]
  | .xori _ a _ => [a]
  | .shli _ a _ => [a]
  | .shri _ a _ => [a]
  | .shrai _ a _ => [a]
  | .rotli _ a _ => [a]
  | .cmpeqi _ a _ => [a]
  | .cmplti _ a _ => [a]
  | .cmpltni _ a _ => [a]
  | .mini _ a _ => [a]
  | .maxi _ a _ => [a]
  | .movk _ d _ => [d]
  | .ldb _ _ a _ => [a]
  | .ldh _ _ a _ => [a]
  | .ldw _ _ a _ => [a]
  | .ldd _ _ a _ => [a]
  | .ldbs _ _ a _ => [a]
  | .ldhs _ _ a _ => [a]
  | .ldws _ _ a _ => [a]
  | .stb _ s a _ => [a, s]
  | .sth _ s a _ => [a, s]
  | .stw _ s a _ => [a, s]
  | .std _ s a _ => [a, s]
  | .pref _ a _ => [a]
  | .bz a _ => [a]
  | .bnz a _ => [a]
  | .bltz a _ => [a]
  | .bgez a _ => [a]
  | .jr a => [a]
  | .loop a _ => [a]
  | .amadd _ a b _ => [a, b]
  | .amfadd _ a b _ => [a, b]
  | .ammin _ a b _ => [a, b]
  | .ammax _ a b _ => [a, b]
  | .amminn _ a b _ => [a, b]
  | .ammaxn _ a b _ => [a, b]
  | .amand _ a b _ => [a, b]
  | .amor _ a b _ => [a, b]
  | .amxor _ a b _ => [a, b]
  | .amxch _ a b _ => [a, b]
  | .amcas d a b _ => [a, b, d]
  | .amincb _ a b _ => [a, b]
  | .lda _ a _ => [a]
  | .strl a b _ => [a, b]
  | .waita d a b _ => [a, b, d]
  | .ftset _ a b _ => [a, b]
  | .ftsetw _ a b _ => [a, b]
  | .ftget _ a _ => [a]
  | .fttry _ a _ _ => [a]
  | .phnew _ a b => [a, b]
  | .phreg _ a b => [a, b]
  | .phdrop _ a b => [a, b]
  | .pharv _ a b _ => [a, b]
  | .phwait _ a b _ => [a, b]
  | .pharw _ a b _ => [a, b]
  | .phbyt _ a b => [a, b]
  | .brbase _ a b => [a, b]
  | .brcmp _ a b _ => [a, b]
  | .rcsnap _ a b _ => [a, b]
  | .rcinc _ a b => [a, b]
  | .amred d a b _ => [a, b, d]
  | .fencef _ a b => [a, b]
  | .winset _ a => [a]
  | .winrt _ a _ => [a]
  | .wallow _ _ a => [a]
  | .topord _ a => [a]
  | .rtchk _ a b => [a, b]
  | .csrwr a _ => [a]
  | .csrset a _ => [a]
  | .csrclr a _ => [a]
  | .idle a => [a]
  | .park a => [a]
  | .spawn _ a _ => [a]
  | .join _ a _ => [a]
  | .leave _ a => [a]
  | .grpq _ a _ => [a]
  | .tlbinv a _ => [a]
  | .ctxsw _ a => [a]
  | .tkpush _ a b _ => [a, b]
  | .tkpeek _ a _ => [a]
  | .jcnt _ a _ => [a]
  | .rngget _ a b => [a, b]
  | .schnxt _ a => [a]
  | .dlset _ a b _ => [a, b]
  | .dlchk _ a => [a]
  | .grdshp _ a _ => [a]
  | .grdval _ a _ => [a]
  | .grdhlth _ a => [a]
  | .recmrk _ a => [a]
  | .ctkset _ a _ => [a]
  | .ctkchk _ a => [a]
  | .lfwd _ a b => [a, b]
  | .ldgr _ a b => [a, b]
  | .lwgr _ a b => [a, b]
  | .lupd _ a b => [a, b]
  | .mcld _ a b => [a, b]
  | .mcstat _ a _ => [a]
  | .tplld _ a _ => [a]
  | .tplrd _ a _ => [a]
  | _ => []

/-- The scalar registers that a word writes (its entry). -/
def writesOf : Instr → List (BitVec 6)
  | .add d _ _ _ => [d]
  | .sub d _ _ _ => [d]
  | .mul d _ _ _ => [d]
  | .mulh d _ _ _ => [d]
  | .mulhn d _ _ _ => [d]
  | .div d _ _ _ => [d]
  | .divn d _ _ _ => [d]
  | .rem d _ _ _ => [d]
  | .remn d _ _ _ => [d]
  | .and d _ _ _ => [d]
  | .or d _ _ _ => [d]
  | .xor d _ _ _ => [d]
  | .andn d _ _ _ => [d]
  | .orn d _ _ _ => [d]
  | .shl d _ _ _ => [d]
  | .shr d _ _ _ => [d]
  | .shra d _ _ _ => [d]
  | .rotl d _ _ _ => [d]
  | .rotr d _ _ _ => [d]
  | .min d _ _ _ => [d]
  | .max d _ _ _ => [d]
  | .minn d _ _ _ => [d]
  | .maxn d _ _ _ => [d]
  | .cmpeq d _ _ _ => [d]
  | .cmpne d _ _ _ => [d]
  | .cmplt d _ _ _ => [d]
  | .cmple d _ _ _ => [d]
  | .cmpltn d _ _ _ => [d]
  | .cmplen d _ _ _ => [d]
  | .sel d _ _ _ => [d]
  | .clz d _ => [d]
  | .ctz d _ => [d]
  | .popc d _ => [d]
  | .brev d _ => [d]
  | .bswp d _ => [d]
  | .sext d _ _ => [d]
  | .zext d _ _ => [d]
  | .bfx d _ _ _ => [d]
  | .bfi d _ _ _ => [d]
  | .addsh d _ _ _ _ => [d]
  | .madd d _ _ _ => [d]
  | .absd d _ _ _ => [d]
  | .addi d _ _ => [d]
  | .muli d _ _ => [d]
  | .andi d _ _ => [d]
  | .ori d _ _ => [d]
  | .xori d _ _ => [d]
  | .shli d _ _ => [d]
  | .shri d _ _ => [d]
  | .shrai d _ _ => [d]
  | .rotli d _ _ => [d]
  | .cmpeqi d _ _ => [d]
  | .cmplti d _ _ => [d]
  | .cmpltni d _ _ => [d]
  | .mini d _ _ => [d]
  | .maxi d _ _ => [d]
  | .movi _ d _ => [d]
  | .movk _ d _ => [d]
  | .movn _ d _ => [d]
  | .ldb _ d _ _ => [d]
  | .ldh _ d _ _ => [d]
  | .ldw _ d _ _ => [d]
  | .ldd _ d _ _ => [d]
  | .ldbs _ d _ _ => [d]
  | .ldhs _ d _ _ => [d]
  | .ldws _ d _ _ => [d]
  | .jal _ => [63#6]
  | .amadd d _ _ _ => [d]
  | .amfadd d _ _ _ => [d]
  | .ammin d _ _ _ => [d]
  | .ammax d _ _ _ => [d]
  | .amminn d _ _ _ => [d]
  | .ammaxn d _ _ _ => [d]
  | .amand d _ _ _ => [d]
  | .amor d _ _ _ => [d]
  | .amxor d _ _ _ => [d]
  | .amxch d _ _ _ => [d]
  | .amcas d _ _ _ => [d]
  | .amincb d _ _ _ => [d]
  | .lda d _ _ => [d]
  | .waita d _ _ _ => [d]
  | .ftset d _ _ _ => [d]
  | .ftsetw d _ _ _ => [d]
  | .ftget d _ _ => [d]
  | .fttry d _ b _ => [d, b]
  | .phnew d _ _ => [d]
  | .phreg d _ _ => [d]
  | .phdrop d _ _ => [d]
  | .pharv d _ _ _ => [d]
  | .phwait d _ _ _ => [d]
  | .pharw d _ _ _ => [d]
  | .phbyt d _ _ => [d]
  | .brbase d _ _ => [d]
  | .bradv d => [d]
  | .brcmp d _ _ _ => [d]
  | .rcsnap d _ _ _ => [d]
  | .rcinc d _ _ => [d]
  | .amred d _ _ _ => [d]
  | .wallow _ d _ => [d]
  | .winq _ d => [d]
  | .topord d _ => [d]
  | .rtchk d _ _ => [d]
  | .csrrd d _ => [d]
  | .spawn d _ _ => [d]
  | .join d _ _ => [d]
  | .leave d _ => [d]
  | .grpq d _ _ => [d]
  | .thid d _ => [d]
  | .lidx d _ => [d]
  | .ctxsw d _ => [d]
  | .tkpush d _ _ _ => [d]
  | .tkpop d _ => [d, 1#6, 2#6, 3#6, 4#6, 63#6]
  | .tkdone d => [d]
  | .tkpeek d _ _ => [d]
  | .jcnt d _ b => [d, b]
  | .rngget d _ _ => [d]
  | .schnxt d _ => [d]
  | .dlset d _ _ _ => [d]
  | .dlchk d _ => [d]
  | .grdshp d _ _ => [d]
  | .grdval d _ _ => [d]
  | .grdhlth d _ => [d]
  | .recmrk d _ => [d]
  | .ctkset d _ _ => [d]
  | .ctkchk d _ => [d]
  | .lfwd d _ _ => [d]
  | .ldgr d _ _ => [d]
  | .lwgr d _ _ => [d]
  | .lupd d _ _ => [d]
  | .mcld d _ _ => [d]
  | .mcstat d _ _ => [d]
  | .ebusy _ a => [a]
  | _ => []

/-- R72: the second operand of format A. -/
def State.op2 (s : State) (b : BitVec 6) (k : Bool) : Word := if k then const64 b.toNat else s.rx b

/-- R74: the effective address of format M with access size n. -/
def State.ea (s : State) (a : BitVec 6) (f : BitVec 8) (n : Nat) : Word := s.rx a + sext64 f * BitVec.ofNat 64 n

/-- R75: the target of a branch. -/
def State.target (s : State) (f : BitVec 18) : Word := s.me.pc + 4 * sext64 f

/-! ### What holds a register back (R15, R17, R119, R128, R263) -/

/-- R15, R119: the register waits for a variable-latency result. -/
def Slot.regPending (x : Slot) (r : BitVec 6) : Bool :=
  r != 0 && x.pend.any fun p =>
    match p.dest with
    | .x n => n == r.toNat
    | .x2 n m => n == r.toNat || m == r.toNat
    | _ => false

/-- R17: the result in the register cannot be read in this clk. -/
def Slot.locked (x : Slot) (clk : Nat) (r : BitVec 6) : Bool := r != 0 && x.lock.any fun e => e.1 == r.toNat && clk < e.2

/-- What stands between a decoded word and its effect. -/
inductive Hazard where
  /-- nothing -/
  | clear
  /-- a pending register or an acquire: the slot is BLOCKED (R15, R119, R288) -/
  | blocked
  /-- the trap of an earlier load whose destination the word reads (R128, R263) -/
  | late (t : LateTrap)
  /-- a scalar interlock: the slot is held (R17) -/
  | held
  deriving DecidableEq, Repr

/-- The hazard of a word that reads and writes these registers in this clk. -/
def Slot.regHazard (x : Slot) (reads writes : List (BitVec 6)) (clk : Nat) : Hazard :=
  if (reads ++ writes).any x.regPending then .blocked
  else
    match (x.lateX.find? fun e => reads.any fun r => r.toNat == e.1).map (·.2) with
    | some t => .late t
    | none => if reads.any (x.locked clk) then .held else .clear

/-! ### The cistern's partitions and the register space (R18–R20) -/

/-- Rows of the register space (R20). -/
def Part.rows (p : Part) : Nat := (p.regg + p.accg) * 32

/-- R20: the cistern byte of register-space row n. -/
def Part.rowByte (p : Part) (n : Nat) : Nat := if n < p.regg * 32 then n * 128 else (n + p.scrg * 32) * 128

/-- First and last byte + 1 of the scratch and of the accumulator partition (R18). -/
def Part.scratch (p : Part) : Nat × Nat := (p.regg * 4096, (p.regg + p.scrg) * 4096)
def Part.accum (p : Part) : Nat × Nat := ((256 - p.accg) * 4096, 1048576)

/-- A register-space row as the cistern holds it. -/
def Core.row (k : Core) (n : Nat) : Row := BitVec.ofNat 1024 (k.cistern.readNat (k.part.rowByte n) 128)

/-! ### View registers (R21–R23) -/

def vwType (v : Word) : EType := EType.ofCode (v.extractLsb' 43 3)
def vwCount (v : Word) : Nat := (v.extractLsb' 29 14).toNat
def vwSlide (v : Word) : Nat := (v.extractLsb' 16 13).toNat
def vwBase (v : Word) : Nat := (v.extractLsb' 0 13).toNat

/-- The bits of a view register that are not reserved (R21). -/
def vwMask : Word := 0x00003FFFFFFF1FFF

/-- R22: the conditions of a view under a row count. -/
def vwOk (v : Word) (rows : Nat) : Bool := vwBase v + vwCount v ≤ rows && (vwCount v == 0 || vwSlide v < vwCount v)

/-- R23: the row of operand vN[i], or the view fault. -/
def Slot.viewRow (x : Slot) (n i : Nat) : Ans Nat :=
  let v := vget x.vw n 0
  if vwCount v ≤ i then .trap causeView (BitVec.ofNat 64 n) (BitVec.ofNat 64 i)
  else .ok (vwBase v + (vwSlide v + i) % vwCount v)

/-- R23: the element type of view N. -/
def Slot.viewType (x : Slot) (n : Nat) : EType := vwType (vget x.vw n 0)

/-! ### Conditions of a row access (R30–R32) -/

/-- R31: a variable-latency load of some slot has this row for destination and has not landed. -/
def Core.rowPending (k : Core) (n : Nat) : Bool := k.slots.toList.any fun x => x.pend.any fun p => p.dest == .row n

/-- R32: some accumulator tile that is filling or draining covers a byte of a to b - 1. -/
def Core.tileBusy (k : Core) (a b : Nat) : Bool :=
  k.tiles.entries.any fun e =>
    let t := e.2
    t.acc && t.size != 0 && (t.state == .filling || t.state == .draining) &&
      t.base * 64 < b && a < t.base * 64 + t.size * 64

/-- R33, R36: what a slot has issued and what has not landed: its landings, with the clk that remain of each, and the
entries of its landing record, which keep theirs. -/
def Slot.unlanded (x : Slot) (clk : Nat) : List Landing := x.lands.map (fun l => { l with due := l.due - clk }) ++ x.lrec

/-- R30: a result on its way to a row, for the early-read trap: unit and clk remaining (log 83, DEDUCED). -/
def Core.exposed (k : Core) (n clk : Nat) : Option (Nat × Nat) :=
  (k.slots.toList.flatMap (·.unlanded clk)).findSome? fun l =>
    if l.kind == .row && l.row == n then some (l.unit, l.due) else none

/-- R31: an earlier-issued fixed-latency result to the row of a load has not landed. -/
def Core.rowHeld (k : Core) (p : Pend) : Bool :=
  match p.dest with
  | .row n => (k.slots.toList.flatMap (·.unlanded 0)).any fun l => l.kind == .row && l.row == n && l.id < p.id
  | _ => false

/-- R31: some byte of a to b - 1 lies in a row that a variable-latency load has marked pending. -/
def Core.pendingBytes (k : Core) (a b : Nat) : Bool :=
  k.slots.toList.any fun x => x.pend.any fun p =>
    match p.dest with
    | .row n => decide (k.part.rowByte n < b ∧ a < k.part.rowByte n + 128)
    | _ => false

/-- R188: the late fault of a load that waits in a row with some byte of a to b - 1, whichever slot loaded it. -/
def Core.lateAt (k : Core) (a b : Nat) : Option LateTrap :=
  ((k.slots.toList.flatMap (·.lateRow)).find? fun e =>
    decide (k.part.rowByte e.1 < b ∧ a < k.part.rowByte e.1 + 128)).map (·.2)

/-- R30: a mem-slot store that has not performed covers one of the 64-bit words of bytes a to b - 1; its pending bit is
kept while DBGP of the storing slot is 1 at the read (log 41, DEDUCED). -/
def Core.pendingWord (k : Core) (a b : Nat) : Option Nat :=
  (k.slots.toList.filter (·.dbgp)).findSome? fun x => (x.unlanded 0).findSome? fun l =>
    if l.kind == .store then
      (l.cells.find? fun c => a / 8 ≤ c.1 / 8 && c.1 / 8 ≤ (b - 1) / 8).map fun c => c.1 / 8 * 8
    else none

/-- What a slot meets that reads (or, with rd false, writes) a row of the register space: R31, R32, R30, R482, and the
late traps of R188 (log 31, DEDUCED) (log 41, DEDUCED). -/
def Core.rowAccess (k : Core) (x : Slot) (n clk : Nat) (rd : Bool) : Ans Unit :=
  let a := k.part.rowByte n
  if k.rowPending n || k.tileBusy a (a + 128) then .wait
  else
  match k.lateAt a (a + 128) with
  | some t => .late t
  | none =>
  if rd then
    match (if x.chkw then k.exposed n clk else none) with
    | some (u, r) => .trap causeEarlyRead (BitVec.ofNat 64 n) (BitVec.ofNat 64 (u + r * 16))
    | none =>
      match (if x.dbgp then k.pendingWord a (a + 128) else none) with
      | some o => .trap causeEarlyCistern (BitVec.ofNat 64 o) 0
      | none => if k.cistern.poisoned unitSram a 128 then .trap causePoison (BitVec.ofNat 64 a) 0 else .ok ()
  else .ok ()

/-- R24, R118: the value of a latch; with CHKW an invalid one traps, with its number as the row and as the unit, and 0 clk
remaining (log 83, DEDUCED). -/
def Core.latchRow (k : Core) (x : Slot) (n : Nat) : Ans Row :=
  match vget k.latch n none with
  | some r => .ok r
  | none => if x.chkw then .trap causeEarlyRead (BitVec.ofNat 64 n) (BitVec.ofNat 64 n) else .ok 0

/-- The ACTIVE slot of a core (R14). -/
def Core.active (k : Core) : Option Nat := (List.range 4).find? fun i => (k.slot i).st == .active

end Sys2Proof.Machine
end

