-- ==== Sys2Proof/Machine/Addr.lean ====
section
/-! DEFINITION. Addresses: regions, translation, physical decode, rights, and the accesses that they lead to (R127,
R438–R445). -/

namespace Sys2Proof.Machine
open Sys2Proof

/-! ### The torus and the topology map (R324, R332) -/

/-- Dies of the torus. -/
def State.dieCount (s : State) : Nat := s.dims.1 * s.dims.2.1 * s.dims.2.2

/-- Coordinates of die n (R332). -/
def State.coords (s : State) (n : Nat) : Nat × Nat × Nat :=
  (n % s.dims.1, n / s.dims.1 % s.dims.2.1, n / (s.dims.1 * s.dims.2.1))

/-- The die at coordinates (R332). -/
def State.dieAt (s : State) (x y z : Nat) : Nat := x + s.dims.1 * (y + s.dims.2.1 * z)

/-- Die A of the package of die n: the even z of the pair (R324; log 20, DEDUCED). -/
def State.dieA (s : State) (n : Nat) : Nat :=
  let c := s.coords n
  s.dieAt c.1 c.2.1 (c.2.2 / 2 * 2)

/-- 0 for die A, 1 for die B of its package (R147; log 20, DEDUCED). -/
def State.pkg (s : State) (n : Nat) : Nat := (s.coords n).2.2 % 2

/-- The place that a physical address names, before any check (R443). -/
def locOfPa (pa : Nat) : Loc :=
  if pa / 2 ^ 55 % 2 = 1 then .host (pa % 2 ^ 55) else .hbm (pa / 2 ^ 39 % 2 ^ 13) (pa % 2 ^ 39)

/-! ### Bytes at places -/

/-- A place k bytes further on. -/
def Loc.plus (l : Loc) (k : Nat) : Loc :=
  match l with
  | .cistern d c o => .cistern d c (o + k)
  | .hbm d o => .hbm d (o + k)
  | .host a => .host (a + k)
  | .sync d o => .sync d (o + k)
  | .const o => .const (o + k)

/-- Set bits of a number of k bits. -/
def popNat : Nat → Nat → Nat
  | 0, _ => 0
  | k + 1, n => n % 2 + popNat k (n / 2)

/-- R439: the word of four bytes at an offset of the constant store. -/
def constWord (o : Nat) : Nat :=
  let i := o / 4
  if i < 1024 then (if popNat 5 (i / 32 &&& i % 32) % 2 = 0 then 0x3F800000 else 0xBF800000)
  else if i < 1088 then constLane .f32 (i - 1024)
  else 0

/-- R439: the byte at an offset of the constant store. -/
def constByte (o : Nat) : Nat := constWord o / 2 ^ (8 * (o % 4)) % 256

/-- n bytes of the constant store. -/
def constNat (o : Nat) : Nat → Nat
  | 0 => 0
  | n + 1 => constByte o + 256 * constNat (o + 1) n

/-- n bytes at a place. -/
def State.peek (s : State) (l : Loc) (n : Nat) : Nat :=
  match l with
  | .cistern d c o => (s.core d c).cistern.readNat o n
  | .hbm d o => (s.die d).hbm.readNat o n
  | .host a => s.hostMem.readNat a n
  | .sync d o => (s.die d).sync.readNat o n
  | .const o => constNat o n

/-- Whether n bytes at a place touch a poisoned unit (R480, R482). -/
def State.bad (s : State) (l : Loc) (n : Nat) : Bool :=
  match l with
  | .cistern d c o => (s.core d c).cistern.poisoned unitSram o n
  | .hbm d o => (s.die d).hbm.poisoned unitHbm o n
  | .host a => s.hostMem.poisoned unitHbm a n
  | .sync d o => (s.die d).sync.poisoned unitSram o n
  | .const _ => false

/-- A memory changed at a place. -/
def State.modMem (s : State) (l : Loc) (f : Mem → Nat → Nat → Mem) : State :=
  match l with
  | .cistern d c o => s.modCore d c fun k => { k with cistern := f k.cistern unitSram o }
  | .hbm d o => s.modDie d fun x => { x with hbm := f x.hbm unitHbm o }
  | .host a => { s with hostMem := f s.hostMem unitHbm a }
  | .sync d o => s.modDie d fun x => { x with sync := f x.sync unitSram o }
  | .const _ => s

/-- n bytes written at a place; poison of whole units covered is cleared (R482). -/
def State.poke (s : State) (l : Loc) (n v : Nat) : State :=
  s.modMem l fun m u o => (m.writeNat o n v).clean u o n

/-- R285, R187: whether a word of the slot that the step concerns, which accesses a place outside its cistern on the core path,
waits for a store of its class into its own cistern that has still to perform (log 91, DEDUCED). -/
def State.classWaits (s : State) (cls : Nat) : Bool := s.me.lands.any fun l => l.kind == .store && l.cls == cls

/-- A store of n bytes by an agent: R483 over a poisoned unit, and the watch of R265 (log 7, DESIGN CHOICE). -/
def State.store (s : State) (l : Loc) (n v : Nat) : State :=
  let s' := (s.poke l n v).snoop l
  if s'.bad l n then
    s'.record s.cur.die { unit := unitOfCore s.cur.core, kind := 0x04, action := 2, range := l.span n
                          d0 := BitVec.ofNat 64 (s.cur.slot + s.me.pc.toNat * 4 % 2 ^ 62) }
  else s'

/-! ### Regions (R438) -/

/-- What the top bits of an address name. -/
inductive Region where
  | global
  | own (o : Nat)
  | peer (core o : Nat) (versioned : Bool)
  | window (w o : Nat)
  | const (o : Nat)
  | sync (o : Nat)
  | none
  deriving DecidableEq, Repr

/-- R438. -/
def region (va : Word) : Region :=
  let v := va.toNat
  if v / 2 ^ 56 = 0 then .global
  else if v / 2 ^ 48 = 0xFFFF then
    let o := v % 2 ^ 40
    match v / 2 ^ 40 % 256 with
    | 0 => if o < 2 ^ 20 then .own o else .none
    | 1 =>
      let c := o / 2 ^ 32
      if c < 192 && o / 2 ^ 20 % 2 ^ 11 = 0 then .peer c (o % 2 ^ 20) (o / 2 ^ 31 % 2 == 1) else .none
    | 2 => if o < 2 ^ 38 then .window (o / 2 ^ 32) (o % 2 ^ 32) else .none
    | 3 => if o < 2 ^ 16 then .const o else .none
    | 4 => if o < 2 ^ 30 then .sync o else .none
    | _ => .none
  else .none

/-- Who accesses: a core with the ASID, privilege and translations under which it does. -/
structure Access where
  die : Nat
  core : Nat
  asid : Nat
  priv : Bool
  xl : List Xlat
  deriving DecidableEq, Repr

/-- The rights an access needs (R442). -/
structure Rights where
  r : Bool := false
  w : Bool := false
  x : Bool := false
  deriving DecidableEq, Repr

def rightsR : Rights := { r := true }
def rightsW : Rights := { w := true }
def rightsRW : Rights := { r := true, w := true }

/-- The access of the slot that the step concerns. -/
def State.access (s : State) : Access :=
  { die := s.cur.die, core := s.cur.core, asid := s.here.ctx.asid.toNat, priv := s.me.priv, xl := s.me.xl }

/-- The place of word i of the topology map (R332), as the core's FAB.TOPO names it. -/
def State.mapLoc (s : State) (d c i : Nat) : Loc := locOfPa ((s.core d c).topo.toNat * 64 + 8 * i)

/-- Word i of the topology map. -/
def State.mapWord (s : State) (d c i : Nat) : Nat := s.peek (s.mapLoc d c i) 8

/-- R324, R443: die n exists and lies in the gang of the core's context; the command core's gang is the torus (R500). -/
def State.inGang (s : State) (d c n : Nat) : Bool :=
  n < s.dieCount && (c == 768 || s.mapWord d c (8 + n) / 2 ^ 32 % 2 ^ 16 == (s.core d c).ctx.gang.toNat)

/-- The HBM stack of a byte (log 22, DEDUCED). -/
def hbmStack (o : Nat) : Nat := o / 2 ^ 36

/-- R443, R493: the place of a physical address, or none where an access to it is refused. -/
def State.physical (s : State) (d c pa : Nat) : Option Loc :=
  match locOfPa pa with
  | .hbm n o =>
    if pa / 2 ^ 52 % 8 = 0 && s.inGang d c n && o < 384 * 2 ^ 30 && (s.die n).rdy.getLsbD (hbmStack o)
    then some (.hbm n o) else none
  | l => some l

/-! ### Translation (R441, R442, R444) -/

/-- The page of an address in a list of pages. -/
def findPage (ps : List Page) (asid va : Nat) : Option Page :=
  ps.find? fun p => p.asid == asid && p.va ≤ va && va < p.va + p.size

/-- What a walk finds: the page, or the translation fault; and the physical address of an unreadable entry (R442). -/
inductive Walk where
  | page (p : Page)
  | fault
  | unreadable (pa : Nat)
  deriving DecidableEq, Repr

/-- Lowest virtual bit indexed by a level, the entries of its table, and whether a leaf may stand there (R441). -/
def levels : List (Nat × Nat × Bool) :=
  [(48, 256, false), (39, 512, false), (30, 512, true), (21, 512, true), (16, 32, true)]

/-- R441, R442: a walk from a table on, with the rights left by the entries already read (log 60, DEDUCED). -/
def State.walkFrom (s : State) (d c asid va : Nat) :
    List (Nat × Nat × Bool) → Nat → Bool → Bool → Bool → Bool → Walk
  | [], _, _, _, _, _ => .fault
  | (lo, n, leafOk) :: rest, table, r, w, x, priv =>
    let pa := table + 8 * (va / 2 ^ lo % n)
    match s.physical d c pa with
    | none => .fault
    | some l =>
      if s.bad l 8 then .unreadable pa
      else
        let e := s.peek l 8
        let bit := fun i => e / 2 ^ i % 2 == 1
        let addr := e / 256 % 2 ^ 48 * 256
        if !bit 0 || e / 2 ^ 56 != 0 || e / 64 % 4 != 0 then .fault
        else if bit 1 then
          if leafOk && addr % 2 ^ lo = 0 then
            .page { asid := asid, va := va / 2 ^ lo * 2 ^ lo, size := 2 ^ lo, pa := addr
                    r := r && bit 2, w := w && bit 3, x := x && bit 4, priv := priv || bit 5 }
          else .fault
        else
          match rest with
          | [] => .fault
          | (_, n', _) :: _ =>
            if addr % (8 * n') = 0 then s.walkFrom d c asid va rest addr (r && bit 2) (w && bit 3) (x && bit 4) (priv || bit 5)
            else .fault

/-- A walk of an address in the context of a core, from the value that XLT.ROOT had when it started (R436) (log 60, DEDUCED). -/
def State.walk (s : State) (d c root va : Nat) : Walk :=
  s.walkFrom d c (s.core d c).ctx.asid.toNat va levels (root * 2048) true true true false

/-- XLT.ROOT of a core (R436). -/
def State.rootOf (s : State) (d c : Nat) : Nat := (s.core d c).ctx.root.toNat

/-- R500: the command core before its firmware has first written a nonzero ROOT. -/
def State.identity (s : State) (d c : Nat) : Bool := c == 768 && !(s.core d c).rooted

/-- What the walk of an address that neither the TLB nor the hub holds will find, where the hub answers (R444, R493). -/
def State.walkAhead (s : State) (a : Access) (va : Nat) : Option Walk :=
  let x := s.die a.die
  if (findPage x.hub a.asid va).isSome || !x.rdy.getLsbD 20 then none else some (s.walk a.die a.core (s.rootOf a.die a.core) va)

/-- R444: the translation of an address, as the word that issues has it: from the walk it waited for, or the TLB. A walk that
finds no page faults in the issue clk, and captures the landings of that clk, as the worked example of file 01 shows
(log 60, DEDUCED). -/
def State.pageOf (s : State) (a : Access) (va : Nat) : Ans Page :=
  if s.identity a.die a.core then
    .ok { asid := 0, va := 0, size := 2 ^ 56, pa := 0, r := true, w := true, x := true, priv := false }
  else
    match a.xl.find? fun e => e.va / 65536 == va / 65536 with
    | some { page := some p, .. } => .ok p
    | some { page := none, .. } => .trap causeXlat (BitVec.ofNat 64 va) (BitVec.ofNat 64 a.asid)
    | none =>
      match findPage (s.core a.die a.core).tlb a.asid va with
      | some p => .ok p
      | none =>
        match s.walkAhead a va with
        | some .fault => .trap causeXlat (BitVec.ofNat 64 va) (BitVec.ofNat 64 a.asid)
        | _ => .walk va

/-- The access fault of an address (R118): TRAP.INFO is 1 for a write. -/
def accessFault {α : Type} (va : Nat) (w : Rights) : Ans α :=
  .trap causeAccess (BitVec.ofNat 64 va) (if w.w then 1 else 0)

/-- R442, R443: the place of a global address in its page under the rights that the access needs. -/
def State.onPage (s : State) (a : Access) (va : Nat) (w : Rights) (p : Page) : Ans Loc :=
  if (w.r && !p.r) || (w.w && !p.w) || (w.x && !p.x) || (p.priv && !a.priv) then accessFault va w
  else
    match s.physical a.die a.core (p.pa + (va - p.va)) with
    | some l => .ok l
    | none => accessFault va w

/-- R441–R444: the place of a global address under the rights that the access needs. A page that the walk will find and that
refuses the access faults in the issue clk (log 60, DEDUCED). -/
def State.global (s : State) (a : Access) (va : Nat) (w : Rights) : Ans Loc :=
  match s.pageOf a va with
  | .walk v =>
    match s.walkAhead a va with
    | some (.page p) => (s.onPage a va w p).bind fun _ => .walk v
    | _ => .walk v
  | r => r.bind (s.onPage a va w)

/-! ### Where an access performs (R127) -/

/-- An access is at a place, at a peer's versioned tile, or goes through a window. -/
inductive Place where
  | loc (l : Loc)
  | versioned (core o : Nat)
  | win (w o : Nat)
  deriving DecidableEq, Repr

/-- The number of core c of the cluster of a core (R147, R438). -/
def peerCore (core c : Nat) : Nat := core / 192 * 192 + c

/-- R440, R446: a sync-variable offset lies in the context's grant; the command core holds every grant (log 14, DEDUCED). -/
def State.granted (s : State) (d c o : Nat) : Bool :=
  let k := s.core d c
  c == 768 || (k.ctx.slo * 65536 ≤ o && o < k.ctx.shi * 65536)

/-- R453: a core accepts cluster-peer accesses of the ASID that it runs, until a save copies it. -/
def State.runs (s : State) (d c asid : Nat) : Bool :=
  let k := s.core d c
  k.ctx.valid && k.ctx.asid.toNat == asid && (k.switch.map fun w => w.step == .copied).getD false == false

/-- R127, R438: the place of an address for an access of n bytes. A region that forbids the access faults. -/
def State.place (s : State) (a : Access) (va : Word) (n : Nat) (w : Rights) : Ans Place :=
  let v := va.toNat
  match region va with
  | .global => (s.global a v w).bind fun l => .ok (.loc l)
  | .own o => if o + n ≤ 2 ^ 20 then .ok (.loc (.cistern a.die a.core o)) else accessFault v w
  | .peer c o ver =>
    if a.core == 768 || 2 ^ 20 < o + n || !s.runs a.die (peerCore a.core c) a.asid then accessFault v w
    else if ver then (if w.w then accessFault v w else .ok (.versioned (peerCore a.core c) o))
    else .ok (.loc (.cistern a.die (peerCore a.core c) o))
  | .window x o => .ok (.win x o)
  | .const o => if w.w || 2 ^ 16 < o + n then accessFault v w else .ok (.loc (.const o))
  | .sync o =>
    if 2 ^ 30 < o + n || !s.granted a.die a.core o then accessFault v w
    else if w.w && o < 0x400000 then accessFault v w
    else .ok (.loc (.sync a.die o))
  | .none => accessFault v w

/-! ### The scoreboard (R226–R230) -/

/-- R228: an entry that holds back an access to lines lo to hi of the cistern, or panels. -/
def sbConflict (es : List SbEntry) (panels : Bool) (lo hi : Nat) (writes : Bool) : Bool :=
  es.any fun e => e.panels == panels && e.lo ≤ hi && lo ≤ e.hi && (e.writes || writes)

/-- R230, R32: an own-cistern access to n bytes at o is held back by the scoreboard or a tile state. -/
def Core.held (k : Core) (o n : Nat) (writes : Bool) : Bool :=
  sbConflict k.sb false (o / 64) ((o + n - 1) / 64) writes || k.tileBusy o (o + n)

/-- An own-cistern access of a slot to n bytes at o, of which it accesses some parts, given as offset and length: what holds
it back (R31, R230), the late fault of a row that they lie in (R188), then the early-cistern read (R30). -/
def State.ownParts (s : State) (o n : Nat) (parts : List (Nat × Nat)) (w : Rights) : Ans Unit :=
  let k := s.here
  if k.held o n w.w || k.pendingBytes o (o + n) then .wait
  else
    match k.lateAt o (o + n) with
    | some t => .late t
    | none =>
      if w.w then .ok ()
      else
        match (if s.me.dbgp then parts.findSome? fun p => k.pendingWord (o + p.1) (o + p.1 + p.2) else none) with
        | some p => .trap causeEarlyCistern (BitVec.ofNat 64 p) 0
        | none => .ok ()

/-- An own-cistern access to n bytes at o. -/
def State.ownAccess (s : State) (o n : Nat) (w : Rights) : Ans Unit := s.ownParts o n [(0, n)] w

/-- The place of a slot's access of n bytes with the alignment fault first (R128). -/
def State.operand (s : State) (va : Word) (n align : Nat) (w : Rights) : Ans Place :=
  if va.toNat % align != 0 then .trap causeAlign va (BitVec.ofNat 64 align)
  else s.place s.access va n w

/-- R128: the value of n bytes for a load at a place of the own cistern: held back, early or poisoned first. -/
def State.ownLoad (s : State) (va : Word) (o n : Nat) : Ans Nat :=
  (s.ownAccess o n rightsR).bind fun _ =>
    if s.here.cistern.poisoned unitSram o n then .trap causePoison va 0 else .ok (s.here.cistern.readNat o n)

/-- Whether a place is the cistern of the core that the step concerns. -/
def State.isOwn (s : State) (l : Loc) : Option Nat :=
  match l with
  | .cistern d c o => if d = s.cur.die && c = s.cur.core then some o else none
  | _ => none

end Sys2Proof.Machine
end

