-- ==== Sys2Proof/Machine/Norm.lean ====
section
/-! DEFINITION. The norm tracker: which elements a write sets, and what they add (R309, R310). -/

namespace Sys2Proof.Machine
open Sys2Proof

/-- One element of a write of a class counted for its sum (R310). -/
def Sampling.addSquare (m : Sampling) (cls : Nat) (ch : NormCh) (e : Nat) (x : Fp) : Sampling :=
  let idx := if ch.rows then e / ch.ncol else e % ch.ncol
  if idx < ch.vlen then { m with adds := (cls, (ch.voff + idx) % 16384, x) :: m.adds } else m

/-- R310: the elements counted in a clk added to their sums: matrix, copy, mem slot. -/
def Sampling.settle (m : Sampling) : Sampling :=
  let es := m.adds.reverse
  let order := es.filter (fun e => e.1 == 0) ++ es.filter (fun e => e.1 == 1) ++ es.filter fun e => 2 ≤ e.1
  { m with
    sums := order.foldl (fun t e =>
      t.set e.2.1 (BitVec.ofNat 32 (fp32.encode (ffma fp32 e.2.2 e.2.2 (fp32.decode (t.get 0 e.2.1).toNat))))) m.sums
    adds := [] }

/-- The norm tracker of a core with the sums of this clk so far. -/
def Core.settle (k : Core) : Core := if k.smp.adds.isEmpty then k else { k with smp := k.smp.settle }

/-- Elements of w bytes whose bytes the write sets, from index i on, n of them. -/
def countFixed (mem : Mem) (cls : Nat) (ch : NormCh) (w : Nat) (f : FFmt) (set : Nat → Bool) : Nat → Nat → Sampling → Sampling
  | _, 0, m => m
  | i, n + 1, m =>
    let a := ch.lo + i * w
    let m := if (List.range w).any fun b => set (a + b) then m.addSquare cls ch i (f.decode (mem.readNat a w)) else m
    countFixed mem cls ch w f set (i + 1) n m

/-- Elements of a block whose bytes the write sets. -/
def countElems (cls : Nat) (ch : NormCh) (f : BFmt) (blk base a : Nat) (set : Nat → Bool) : Nat → Nat → Sampling → Sampling
  | _, 0, m => m
  | i, n + 1, m =>
    let lo := 16 + i * f.bits
    let hit := (List.range ((lo + f.bits - 1) / 8 + 1 - lo / 8)).any fun k => set (a + lo / 8 + k)
    countElems cls ch f blk base a set (i + 1) n (if hit then m.addSquare cls ch (base + i) (blkVal f blk i) else m)

/-- Blocks of a stream that the write touches, from block i on, n of them; a reserved FMT sets BAD. -/
def countBlocks (mem : Mem) (cls : Nat) (ch : NormCh) (c : Nat) (set : Nat → Bool) : Nat → Nat → Sampling → Sampling
  | _, 0, m => m
  | i, n + 1, m =>
    let a := ch.lo + i * 64
    let m :=
      if (List.range 64).any fun b => set (a + b) then
        let blk := mem.readNat a 64
        match blockFmt (blkFmt blk) with
        | some f => countElems cls ch f blk (i * f.n) a set 0 f.n m
        | none => { m with ch := m.ch.setIfInBounds c { vget m.ch c {} with bad := true } }
      else m
    countBlocks mem cls ch c set (i + 1) n m

/-- What one channel counts of a write to bytes a to b − 1, of which it sets those that `set` names. -/
def countChannel (mem : Mem) (cls c a b : Nat) (set : Nat → Bool) (m : Sampling) : Sampling :=
  let ch := vget m.ch c {}
  let lo := max a ch.lo
  let hi := min b (ch.lo + ch.len)
  let on := fun x => set x && a ≤ x && x < b && ch.lo ≤ x && x < ch.lo + ch.len
  if !ch.act || hi ≤ lo then m
  else
    let span := fun w => ((lo - ch.lo) / w, (hi - 1 - ch.lo) / w + 1 - (lo - ch.lo) / w)
    match ch.fmt with
    | 0 => countFixed mem cls ch 4 fp32 on (span 4).1 (span 4).2 m
    | 1 => countFixed mem cls ch 2 Sys2Proof.bf16 on (span 2).1 (span 2).2 m
    | _ => countBlocks mem cls ch c on (span 64).1 (span 64).2 m

/-- R310: a write of a class that has performed in the cistern of a core, counted by its active channels. -/
def Core.count (k : Core) (cls a b : Nat) (set : Nat → Bool) : Core :=
  if (k.smp.ch.toList.any (·.act)) then
    { k with smp := [0, 1, 2, 3].foldl (fun m c => countChannel k.cistern cls c a b set m) k.smp }
  else k

/-- A line of a copy that has performed at a place, counted. -/
def State.countAt (s : State) (l : Loc) (n : Nat) : State :=
  match l with
  | .cistern d c o => s.modCore d c fun k => k.count 1 o (o + n) fun _ => true
  | _ => s

/-- A write of a class that has performed, of bytes at cistern offsets, counted. -/
def State.countCells (s : State) (cls d c : Nat) (cells : List (Nat × Byte)) : State :=
  match cells with
  | [] => s
  | (a, _) :: _ =>
    let lo := cells.foldl (fun m x => min m x.1) a
    let hi := cells.foldl (fun m x => max m x.1) a
    s.modCore d c fun k => k.count cls lo (hi + 1) fun x => cells.any fun y => y.1 == x

end Sys2Proof.Machine
end

