-- ==== Sys2Proof/Machine/Capture.lean ====
section
/-! DEFINITION. Capture of the inputs that a stroke brings into a die (R412, R413). -/

namespace Sys2Proof.Machine
open Sys2Proof

/-- R412: one 64-byte record of a capture area (log 56, DEDUCED). -/
def captureRecord (clk kind addr data : Nat) : Nat :=
  clk % 2 ^ 64 + kind * 2 ^ 64 + addr % 2 ^ 64 * 2 ^ 128 + data % 2 ^ 320 * 2 ^ 192

/-- R412, R413: a record with a clk written into the capture area of a die; nothing while capture is off or the area is full (log
56, DEDUCED). -/
def State.captureAt (s : State) (d clk kind addr data : Nat) : State :=
  let x := s.die d
  let n := x.captLog.toNat
  if !x.gmCapt || n < 12 || 40 < n || x.capOvf then s
  else
    let l := locOfPa (x.captBase.toNat * 4096 + x.captPos)
    let s := (s.poke l 64 (captureRecord clk kind addr data)).snoop l
    s.modDie d fun x => { x with captPos := x.captPos + 64, capOvf := decide (2 ^ n < x.captPos + 128) }

/-- R412: a record of this clk. -/
def State.capture (s : State) (d kind addr data : Nat) : State := s.captureAt d s.clk kind addr data

/-- R412: the key of a stroke and the versions of the trace parts that a die replays, eight to a record (log 66, DESIGN CHOICE). -/
def State.captureKey (s : State) (d : Nat) (r : Stroke) (parts : List TracePart) : State :=
  (List.range (parts.length / 8 + 1)).foldl (fun s i =>
    let versions := ((List.range 8).map fun k => (((parts[8 * i + k]?).map (·.version)).getD 0) % 2 ^ 32 * 2 ^ (64 + 32 * k)).sum
    s.capture d 1 (i + 1) (r.key.toNat + versions)) s

/-- A stroke runs on a die. -/
def Die.strokeRuns (x : Die) : Bool := x.graphs.entries.any fun e => e.2.run.isSome

/-- R412: an input of the running strokes of a die. -/
def State.captureInput (s : State) (d kind addr data : Nat) : State :=
  if (s.die d).strokeRuns then s.capture d kind addr data else s

/-- R412: the lines of a read of host memory, two records each; the second holds its kind and data only. -/
def State.captureHost (s : State) (d : Nat) (l : Loc) (n : Nat) : State :=
  match l with
  | .host a =>
    if !(s.die d).strokeRuns then s
    else
      (List.range ((a + n - 1) / 64 + 1 - a / 64)).foldl (fun s i =>
        let b := (a / 64 + i) * 64
        let v := s.peek (.host b) 64
        (s.capture d 3 b v).captureAt d 0 3 0 (v / 2 ^ 320)) s
  | _ => s

end Sys2Proof.Machine
end

