-- ==== Sys2Proof/Machine/Fabric.lean ====
section
/-! DEFINITION. Routes, windows, the combining buffer and the packets that leave a die (R297, R324–R342). -/

namespace Sys2Proof.Machine
open Sys2Proof

/-! ### Routes (R327, R328, R330) -/

/-- The torus as a fabric unit sees it: sizes and dateline coordinates of X, Y and Z (R332). -/
structure Torus where
  size : Vector Nat 3
  line : Vector Nat 3
  deriving DecidableEq, Repr

def segDir (r : Word) (i : Nat) : Nat := r.toNat / 2 ^ (8 * i + 5) % 8
def segCount (r : Word) (i : Nat) : Nat := r.toNat / 2 ^ (8 * i) % 32
def routeSegs (r : Word) : Nat := r.toNat / 2 ^ 60

/-- R330: a reason word without RIDX. -/
def reasonWord (code seg hop : Nat) : Nat := code + seg * 2 ^ 8 + hop * 2 ^ 11

/-- The first index below n at which a test holds. -/
def firstIndex (p : Nat → Bool) (n : Nat) : Option Nat := (List.range n).find? p

/-- R327, reason 1: the segment that is not well formed, or 7. -/
def badForm (r : Word) : Option Nat :=
  let n := routeSegs r
  if n = 0 || 7 < n || r.toNat / 2 ^ 58 % 4 != 0 then some 7
  else firstIndex (fun i =>
    if i + 1 < n then 6 ≤ segDir r i || segCount r i == 0
    else if i + 1 = n then segDir r i != 6 || 4 ≤ segCount r i
    else segDir r i != 0 || segCount r i != 0) 7

/-- The moving segments of a route, as direction and count. -/
def movesOf (r : Word) : List (Nat × Nat) := (List.range (routeSegs r - 1)).map fun i => (segDir r i, segCount r i)

/-- The coordinate one step in direction d from c in a dimension of size n. -/
def stepCoord (n d c : Nat) : Nat := if d % 2 = 0 then (c + 1) % n else (c + n - 1) % n

/-- One hop of a route: segment, hop within it, direction, and the coordinates before it. -/
structure Hop where
  seg : Nat
  hop : Nat
  dir : Nat
  pos : Vector Nat 3
  deriving DecidableEq, Repr

/-- The position after a hop. -/
def stepPos (t : Torus) (d : Nat) (p : Vector Nat 3) : Vector Nat 3 :=
  p.setIfInBounds (d / 2) (stepCoord (vget t.size (d / 2) 1) d (vget p (d / 2) 0))

/-- The hops of one segment. -/
def segHops (t : Torus) (seg d : Nat) : Nat → Nat → Vector Nat 3 → List Hop × Vector Nat 3
  | 0, _, p => ([], p)
  | k + 1, h, p =>
    let r := segHops t seg d k (h + 1) (stepPos t d p)
    ({ seg := seg, hop := h, dir := d, pos := p } :: r.1, r.2)

/-- The hops of a list of moving segments, and where they end. -/
def hopsFrom (t : Torus) : List (Nat × Nat) → Nat → Vector Nat 3 → List Hop × Vector Nat 3
  | [], _, p => ([], p)
  | (d, n) :: rest, seg, p =>
    let a := segHops t seg d n 0 p
    let b := hopsFrom t rest (seg + 1) a.2
    (a.1 ++ b.1, b.2)

/-- R328: a hop crosses the dateline of its dimension. -/
def Hop.crosses (t : Torus) (h : Hop) : Bool :=
  let c := vget h.pos (h.dir / 2) 0
  let l := vget t.line (h.dir / 2) 0
  let n := vget t.size (h.dir / 2) 1
  if h.dir % 2 = 0 then c == l else (c + n - 1) % n == l

/-- R328, check 5: the hop of the second crossing of one dimension's dateline. -/
def secondCrossing (t : Torus) : List Hop → List Nat → Option Hop
  | [], _ => none
  | h :: rest, seen =>
    if h.crosses t then
      if seen.contains (h.dir / 2) then some h else secondCrossing t rest ((h.dir / 2) :: seen)
    else secondCrossing t rest seen

/-- R328: the reason word of a route from src to coordinates tgt and cluster cl; 0 when it passes. -/
def routeCheck (t : Torus) (mask : BitVec 36) (r : Word) (src tgt : Vector Nat 3) (cl : Nat) : Nat :=
  match badForm r with
  | some i => reasonWord 1 i 0
  | none =>
    let ms := movesOf r
    match firstIndex (fun i => ((ms[i]?).map fun m => decide (vget t.size (m.1 / 2) 1 ≤ 1)).getD false) ms.length with
    | some i => reasonWord 2 i 0
    | none =>
      let hops := hopsFrom t ms 0 src
      match firstIndex (fun d => vget t.size d 1 ≤ vget tgt d 0 || vget hops.2 d 0 != vget tgt d 0) 3 with
      | some d => reasonWord 3 0 d
      | none =>
        let turn := fun i => match ms[i]?, ms[i + 1]? with
          | some a, some b => !mask.getLsbD (6 * a.1 + b.1)
          | _, _ => false
        match firstIndex turn ms.length with
        | some i => reasonWord 4 (i + 1) 0
        | none =>
          match secondCrossing t hops.1 [] with
          | some h => reasonWord 5 h.seg h.hop
          | none => if segCount r (routeSegs r - 1) % 4 = cl then 0 else reasonWord 7 (routeSegs r - 1) 0

/-! ### The map as the fabric unit and the instructions read it (R328, R332) -/

/-- Sizes and datelines as words 0 and 1 of the map give them. -/
def State.mapTorus (s : State) (d c : Nat) : Torus :=
  let w0 := s.mapWord d c 0
  let w1 := s.mapWord d c 1
  { size := #v[w0 / 2 ^ 8 % 32, w0 / 2 ^ 13 % 32, w0 / 2 ^ 18 % 64]
    line := #v[w1 % 32, w1 / 2 ^ 5 % 32, w1 / 2 ^ 10 % 32] }

/-- What the fabric unit of a die last loaded (log 23, DEDUCED). -/
def State.fabTorus (s : State) (d : Nat) : Torus :=
  match (s.die d).fab with
  | some v => { size := #v[vget v 0 1, vget v 1 1, vget v 2 1], line := #v[vget v 3 0, vget v 4 0, vget v 5 0] }
  | none => { size := #v[1, 1, 1], line := #v[0, 0, 0] }

/-- The fabric unit loads sizes and datelines from the map (log 23, DEDUCED). -/
def State.loadFab (s : State) (d c : Nat) : State :=
  let t := s.mapTorus d c
  s.modDie d fun x => { x with fab := some #v[vget t.size 0 1, vget t.size 1 1, vget t.size 2 1,
                                              vget t.line 0 0, vget t.line 1 0, vget t.line 2 0] }

/-- The coordinates of a die as a vector. -/
def State.pos (s : State) (n : Nat) : Vector Nat 3 :=
  let c := s.coords n
  #v[c.1, c.2.1, c.2.2]

/-- The neighbour of a die in a direction (R324). -/
def State.neighbour (s : State) (n d : Nat) : Nat :=
  let t : Torus := { size := #v[s.dims.1, s.dims.2.1, s.dims.2.2], line := #v[0, 0, 0] }
  let p := stepPos t d (s.pos n)
  s.dieAt (vget p 0 0) (vget p 1 0) (vget p 2 0)

/-- R331: the link is down, or absent. -/
def State.linkDown (s : State) (n d : Nat) : Bool := 2 ≤ (vget (s.die n).links d {}).st.toNat

/-! ### Windows (R335–R337) -/

def Window.bit (w : Window) (i : Nat) : Bool := w.ctrl.getLsbD i
def Window.field (w : Window) (lo n : Nat) : Nat := w.ctrl.toNat / 2 ^ lo % 2 ^ n
def Window.valid (w : Window) : Bool := w.bit 51
def Window.allow (w : Window) : Nat := w.field 41 10
def Window.nrt (w : Window) : Nat := w.field 39 2
def Window.kind (w : Window) : Nat := w.field 17 2
def Window.cl (w : Window) : Nat := w.field 15 2
def Window.tgt (w : Window) : Vector Nat 3 := #v[w.field 0 5, w.field 5 5, w.field 10 5]

/-- A window of a core. -/
def Core.win (k : Core) (w : Nat) : Window := vget k.wins w {}

/-- A core with a window changed. -/
def Core.modWin (k : Core) (w : Nat) (f : Window → Window) : Core :=
  { k with wins := k.wins.setIfInBounds w (f (k.win w)) }

/-- The target die of a window. -/
def State.winDie (s : State) (w : Window) : Nat := s.dieAt (vget w.tgt 0 0) (vget w.tgt 1 0) (vget w.tgt 2 0)

/-- R336: the target of window offset o. -/
def State.winLoc (s : State) (w : Window) (o : Nat) : Loc :=
  let d := s.winDie w
  let core := w.field 19 8
  let b := w.base.toNat
  match w.kind with
  | 0 => .cistern d (w.cl * 192 + core) (b + o)
  | 1 =>
    let sz := 2 ^ (6 + w.field 35 4)
    let nc := w.field 27 8 + 1
    let q := o / sz
    .cistern d (w.cl * 192 + core + q % nc) (b + q / nc * sz + o % sz)
  | _ => .sync d (b + o)

/-- R337: the checks of an access to bytes o to o + n - 1 of a window; `slot` for accesses of slots, `sync` for class
0x4 operations, `writes` where R254 forbids the handle area. -/
def State.winOk (s : State) (w : Window) (o n : Nat) (slot sync writes : Bool) : Bool :=
  w.valid && o + n ≤ w.limit.toNat && (!slot || w.gang) && (!sync || w.kind == 2) &&
  ((List.range ((o + n - 1) / 64 + 1 - o / 64)).all fun i =>
    let a := if i = 0 then o else (o / 64 + i) * 64
    let b := min (o + n) ((o / 64 + i + 1) * 64)
    match s.winLoc w a with
    | .cistern _ _ t => t + (b - a) ≤ 2 ^ 20
    | .sync _ t => t + (b - a) ≤ 2 ^ 30 && (!writes || 0x400000 ≤ t)
    | _ => false)

/-- R336: the route index of the line of a window offset. -/
def Window.route (w : Window) (o : Nat) : Nat :=
  let l := o / 64 % 2 ^ 26
  ((List.range 13).foldl (fun h i => h ^^^ (l / 4 ^ i % 4)) 0) % (w.nrt + 1)

/-! ### Packets leave (R328, R331, R341) -/

/-- The step that concerns a packet. -/
def packetEv (p : Packet) (op : Instr) : Ev :=
  { who := { die := p.at_, core := p.core, slot := p.slot, id := p.id }, op := op }

/-- R331: clk until a request without a reply ends. -/
def Core.timeout (k : Core) : Nat := (if k.tmo = 0 then 2 ^ 20 else k.tmo.toNat) * 1024

/-- A request enters the fabric at its source: the injection check (R328), its time limit (R331) and its first hop. -/
def State.inject (s : State) (p : Packet) : State :=
  let k := s.core p.die p.core
  let w := k.win p.win
  let r := routeCheck (s.fabTorus p.die) k.turn p.route (s.pos p.die) w.tgt w.cl
  let p := if r = 0 then p else { p with reason := r + p.ridx * 2 ^ 16, back := true }
  let s := { s with packets := s.packets.set p.id p }
  let s := s.modCore p.die p.core fun k => { k with awaits := k.awaits ++ [{ pkt := p, until_ := s.clk + k.timeout }] }
  let s := s.later k.timeout (packetEv p .fabTimeout)
  if r = 0 then (s.later (1 + Config.latency s.fresh) (packetEv p .packetForward)).stamp
  else s.later 1 (packetEv p .bounceReceived)

/-- A new packet of window w of a core for offset o, not yet in the fabric. -/
def State.packetOf (s : State) (d c w o : Nat) (kind : PktKind) : Packet :=
  let k := s.core d c
  let x := k.win w
  let i := x.route o
  { id := s.ids, kind := kind, die := d, core := c, slot := 0, asid := k.ctx.asid.toNat, win := w, gen := x.gen, cls := 0, seq := 0
    route := vget x.routes i 0, ridx := i, at_ := d, vc := (vget x.routes i 0).toNat / 2 ^ 56 % 2
    target := s.winLoc x o }

/-- The next sequence number of a window and class, and the window that has given it (R341). -/
def Window.take (w : Window) (cls : Nat) : Nat × Window :=
  let n := w.seq.get 0 cls
  (n, { w with seq := w.seq.set cls (n + 1) })

/-- A sluice unit taken (R340). -/
def Window.unit (w : Window) : Window := { w with out := w.out + 1 }

/-- Units that a window can still give (R340). -/
def Window.free (w : Window) : Nat := (w.allow + 1) - w.out

/-! ### The combining buffer (R297) -/

/-- An entry drains: its packet is injected. -/
def State.drainEntry (s : State) (d c : Nat) (e : CombEntry) : State :=
  let p := s.packetOf d c e.win (e.line * 64) .posted
  let s := (s.modCore d c fun k => { k with comb := k.comb.filter fun x => x.id != e.id }).newId
  s.inject { p with slot := e.slots.foldl (fun a i => a + 2 ^ i) 0, cls := e.cls, seq := e.seq, owner := e.id
                    data := e.data, bytes := e.bytes, pc := e.pc, addr := BitVec.ofNat 64 (0xFFFF020000000000 + e.win * 2 ^ 32 + e.line * 64) }

/-- The entries of a core that a test names drain in the order in which they were opened. -/
def State.drainWhere (s : State) (d c : Nat) (t : CombEntry → Bool) : State :=
  ((s.core d c).comb.filter t).foldl (fun s e => s.drainEntry d c e) s

/-- The mask of bytes i to i + n - 1 of a line. -/
def lineMask (i n : Nat) : BitVec 64 := BitVec.ofNat 64 ((2 ^ n - 1) * 2 ^ i)

/-- A line with the masked bytes of another. -/
def mergeLine (old new : BitVec 512) (m : BitVec 64) : BitVec 512 :=
  BitVec.ofNat 512 ((List.range 64).foldl (fun a i =>
    a + (if m.getLsbD i then new else old).toNat / 2 ^ (8 * i) % 256 * 2 ^ (8 * i)) 0)

/-- R297: the newest entry of a window and class. -/
def newestEntry (es : List CombEntry) (w cls : Nat) : Option CombEntry := (es.filter fun e => e.win == w && e.cls == cls).getLast?

/-- R297: whether a write to a line would merge. -/
def combMerges (es : List CombEntry) (w cls line : Nat) : Bool :=
  match newestEntry es w cls with
  | some e => e.line == line
  | none => false

/-- R297: a posted write of a slot to one line, given as its bytes in place and their mask. A full buffer drains its
oldest entry. -/
def State.post1 (s : State) (w cls line : Nat) (data : BitVec 512) (m : BitVec 64) : State :=
  let d := s.cur.die
  let c := s.cur.core
  let k := s.core d c
  match newestEntry k.comb w cls with
  | some e =>
    if e.line = line then
      s.modCore d c fun k => { k with comb := k.comb.map fun x =>
        if x.id = e.id then { x with data := mergeLine x.data data m, bytes := x.bytes ||| m
                                     slots := insertNat x.slots s.cur.slot } else x }
    else open_ s d c
  | none => open_ s d c
where
  /-- a new entry, with its sluice unit, its sequence number and its time limit -/
  open_ (s : State) (d c : Nat) : State :=
    let s := match (s.core d c).comb with
      | e :: _ => if 32 ≤ (s.core d c).comb.length then s.drainEntry d c e else s
      | [] => s
    let q := ((s.core d c).win w).take cls
    let e : CombEntry := { id := s.ids, win := w, cls := cls, line := line, data := mergeLine 0 data m, bytes := m
                           slots := [s.cur.slot], opened := s.clk, seq := q.1, pc := s.me.pc }
    ((s.modCore d c fun k => { k.modWin w (fun _ => q.2.unit) with comb := k.comb ++ [e] }).newId).later 256
      { who := { s.cur with id := e.id }, op := .combiningDrainTimeout }

/-- The pieces of an access to bytes o to o + n - 1 of a window, one for each line: offset and length. -/
def linePieces (o n : Nat) : List (Nat × Nat) :=
  (List.range ((o + n - 1) / 64 + 1 - o / 64)).map fun i =>
    let a := max o ((o / 64 + i) * 64)
    (a, min (o + n) ((o / 64 + i + 1) * 64) - a)

/-- R340: sluice units that posted writes of bytes o to o + n - 1 would take. -/
def Core.unitsFor (k : Core) (w cls o n : Nat) : Nat :=
  ((linePieces o n).filter fun p => !combMerges k.comb w cls (p.1 / 64)).length

/-! ### What a slot still has on its way through windows (R285, R288, R293, R347) -/

/-- A packet concerns a slot. -/
def Packet.of (p : Packet) (i : Nat) : Bool :=
  match p.kind with
  | .posted => p.slot / 2 ^ i % 2 == 1
  | .copyLine _ => false
  | .copyRead _ => false
  | .arrival _ copy => !copy && p.slot == i
  | _ => p.slot == i

/-- An outstanding request concerns a slot. -/
def Await.of (a : Await) (i : Nat) : Bool := a.pkt.of i

/-- A remote load of a slot in a class that has not performed, with the number of its pending result under a test
(R285). -/
def State.loadOut (s : State) (d c i cls : Nat) (t : Nat → Bool) : Bool :=
  (s.packets.entries.any fun e =>
    let p := e.2
    !p.back && p.die == d && p.core == c && p.slot == i && p.cls == cls && t p.owner && (match p.kind with
      | .load _ _ => true
      | _ => false)) ||
  (s.slot d c i).pend.any fun q => !q.answered && t q.id && (match q.block with
    | some v => v.c64.toNat % 16 == cls
    | none => false)

/-- A posted write of a slot in a class that has not performed, opened before number n (R285). -/
def State.writeOut (s : State) (d c i cls n : Nat) : Bool :=
  ((s.core d c).comb.any fun e => e.cls == cls && e.slots.contains i && e.id < n) ||
  s.packets.entries.any fun e =>
    let p := e.2
    !p.back && p.die == d && p.core == c && p.cls == cls && p.owner < n && (match p.kind with
      | .posted => p.of i
      | _ => false)

/-- R285, R296: a write that would merge into an entry opened before a load of the slot that has not performed waits for
that load, which must not find its bytes (log 92, DEDUCED). -/
def State.mergeWaits (s : State) (w cls line : Nat) : Bool :=
  match newestEntry s.here.comb w cls with
  | some e => e.line == line && s.loadOut s.cur.die s.cur.core s.cur.slot cls fun k => e.id < k
  | none => false

/-! ### What a target refuses, and the way to it (R331, R338) -/

/-- R338: some core of a die runs an ASID and holds a sync grant over an offset. -/
def State.dieRuns (s : State) (d asid o : Nat) : Bool :=
  (s.die d).cores.entries.any fun e => s.runs d e.1 asid && e.2.ctx.slo * 65536 ≤ o && o < e.2.ctx.shi * 65536

/-- The bytes that a write packet writes, for a line that starts at offset o of its target. -/
def Packet.cells (p : Packet) (o : Nat) : List (Nat × Byte) :=
  (List.range 64).filterMap fun i => if p.bytes.getLsbD i then some (o + i, p.data.extractLsb' (8 * i) 8) else none

/-- R338: a request is rejected at its target. -/
def State.rejected (s : State) (p : Packet) : Bool :=
  match p.target with
  | .cistern d c o =>
    let k := s.core d c
    let inside := match p.kind with
      | .load _ ps => ps.all fun q => k.part.scratch.1 ≤ o + q.1 && o + q.1 + q.2.1 ≤ k.part.scratch.2
      | .copyRead _ => k.part.scratch.1 ≤ o && o + 64 ≤ k.part.scratch.2
      | _ => (p.cells o).all fun b => k.part.scratch.1 ≤ b.1 && b.1 < k.part.scratch.2
    (p.asid != 0 && !s.runs d c p.asid) || !inside
  | .sync d o => p.asid != 0 && !s.dieRuns d p.asid o
  | _ => true

/-- R331: the first hop of a route whose outgoing link is down. -/
def State.downHop (s : State) (d : Nat) (r : Word) : Option Hop :=
  let t : Torus := { size := #v[s.dims.1, s.dims.2.1, s.dims.2.2], line := #v[0, 0, 0] }
  (hopsFrom t (movesOf r) 0 (s.pos d)).1.find? fun h =>
    s.linkDown (s.dieAt (vget h.pos 0 0) (vget h.pos 1 0) (vget h.pos 2 0)) h.dir

/-- The reason word with which a read that a word makes at once would end at its target; 0 when it succeeds (R328, R331, R338)
(log 25, DEDUCED). -/
def State.farReason (s : State) (p : Packet) : Nat :=
  let k := s.core p.die p.core
  let w := k.win p.win
  let r := routeCheck (s.fabTorus p.die) k.turn p.route (s.pos p.die) w.tgt w.cl
  let code :=
    if r ≠ 0 then r
    else
      match s.downHop p.die p.route with
      | some h => reasonWord 6 h.seg h.hop
      | none => if s.rejected p then reasonWord 8 0 0 else 0
  if code = 0 then 0 else code + p.ridx * 2 ^ 16

end Sys2Proof.Machine
end

