-- ==== Sys2Proof/Machine/Access.lean ====
section
/-! DEFINITION. Loads and stores of slots at the places that an address names, results in flight, fences and releases
(R126–R128, R284–R300, R340, R342). -/

namespace Sys2Proof.Machine
open Sys2Proof

/-! ### Results in flight (R31, R119, R259) -/

/-- A pending result of a slot changed. -/
def State.modPend (s : State) (d c i id : Nat) (f : Pend → Pend) : State :=
  s.modSlot d c i fun x => { x with pend := x.pend.map fun p => if p.id = id then f p else p }

/-- A pending result of a slot. -/
def State.findPend (s : State) (d c i id : Nat) : Option Pend := (s.slot d c i).pend.find? fun p => p.id == id

/-- A new pending result of the slot that the step concerns; it takes the next number. -/
def State.addPend (s : State) (p : Pend) : State :=
  (s.upMe fun x => { x with pend := x.pend ++ [{ p with id := s.ids }] }).newId

/-- R412: a read of n bytes by a slot, with its lines of host memory in a capture. -/
def State.captureRead (s : State) (va : Word) (n align : Nat) : State :=
  match s.operand va n align rightsR with
  | .ok (.loc l) => s.captureHost s.cur.die l n
  | _ => s

/-- A pending result with nothing in it. -/
def Pend.new (dest : Dest) : Pend :=
  { id := 0, dest := dest, sync := false, vq := false, acquire := false, answered := false, vals := [], data := 0
    bytes := 0, late := none }

/-- The answer has come: it lands after a latency (log 4, DESIGN CHOICE). -/
def State.landLater (s : State) (d c i id : Nat) (op : Instr) : State :=
  (s.later (1 + Config.latency s.fresh) { who := { die := d, core := c, slot := i, id := id }, op := op }).stamp

/-- A load whose data have been read: its destination is pending until they land (R31). -/
def State.loaded (s : State) (p : Pend) : State :=
  (s.addPend { p with answered := true }).landLater s.cur.die s.cur.core s.cur.slot s.ids .variableLoadLanding

/-- R185: the arrival of a VSTA of a slot, which follows the posted writes named. -/
def State.startArrival (s : State) (d c slot : Nat) (addr : Word) (n cls : Nat) (gates : List (Nat × Nat)) : State :=
  let a : VArrival := { id := s.ids, slot := slot, addr := addr, n := n, cls := cls, gates := gates }
  (s.modCore d c fun k => { k with arrivals := k.arrivals ++ [a] }).newId.soon
    { who := { die := d, core := c, slot := slot, id := a.id }, op := .vstaArrival }

/-- R185: an arrival of a VSTA that is no longer to be delivered. -/
def State.dropArrivals (s : State) (d c : Nat) (t : VArrival → Bool) : State :=
  s.modCore d c fun k => { k with arrivals := k.arrivals.filter fun a => !t a }

/-- A run of the copy engine changed. -/
def State.modRun (s : State) (d c id : Nat) (f : Run → Run) : State :=
  s.modCore d c fun k => { k with cpy := { k.cpy with flight := k.cpy.flight.map fun r => if r.cmd.id = id then f r else r } }

/-- R126: n loaded bytes as a register value. -/
def extendTo (n v : Nat) (signed : Bool) : Word :=
  if signed && 2 ^ (8 * n - 1) ≤ v % 2 ^ (8 * n) then BitVec.ofInt 64 ((v % 2 ^ (8 * n) : Nat) - (2 ^ (8 * n) : Nat) : Int)
  else BitVec.ofNat 64 (v % 2 ^ (8 * n))

/-- R128, R188: the poison trap that waits for the first reader. -/
def State.latePoison (s : State) (va : Word) : LateTrap := { cause := causePoison, pc := s.me.pc, val := va, info := 0 }

/-- R493: a place in the sync-variable region of a die whose sync engine is not ready. -/
def State.syncWaits (s : State) (l : Loc) : Bool :=
  match l with
  | .sync d _ => !(s.die d).rdy.getLsbD 19
  | _ => false

/-! ### Versioned reads (R299, R300) -/

/-- The lowest-numbered tile of a core that contains bytes o to o + n - 1, with its number. -/
def Core.tileOver (k : Core) (o n : Nat) : Option (Nat × Tile) :=
  k.tiles.entries.find? fun e => e.2.size != 0 && e.2.base * 64 ≤ o && o + n ≤ (e.2.base + e.2.size) * 64

/-- R299, R300: a versioned read of n bytes of a peer: the access fault without a tile over them, an attempt that fails
while its VER is odd (log 13, DESIGN CHOICE). -/
def State.versionedOk (s : State) (core o n : Nat) (va : Word) : Ans Unit :=
  match (s.core s.cur.die core).tileOver o n with
  | none => accessFault va.toNat rightsR
  | some (t, x) => if x.ver.getLsbD 0 then .contended t else .ok ()

/-! ### Remote loads (R298, R339, R342) -/

/-- R298: a byte of the combining buffer as a load of a slot in a class finds it. -/
def Core.buffered (k : Core) (slot w cls o pick : Nat) : Option Nat :=
  let es := k.comb.filter fun e => e.win == w && e.line == o / 64 && e.slots.contains slot && e.bytes.getLsbD (o % 64)
  let val := fun (e : CombEntry) => e.data.toNat / 2 ^ (8 * (o % 64)) % 256
  match (es.filter fun e => e.cls == cls).getLast? with
  | some e => some (val e)
  | none => if pick % 2 = 0 && !es.any (fun e => e.fenced.contains slot) then none else es.getLast?.map val

/-- The buffered ones of some bytes of a line, as a line and its mask. -/
def Core.bufferedLine (k : Core) (slot w cls line : Nat) (want : List Nat) (pick : Nat) : BitVec 512 × BitVec 64 :=
  let got := want.filterMap fun i => (k.buffered slot w cls (line * 64 + i) pick).map fun v => (i, v)
  (BitVec.ofNat 512 (got.foldl (fun a g => a + g.2 * 2 ^ (8 * g.1)) 0),
   BitVec.ofNat 64 (got.foldl (fun a g => a + 2 ^ g.1) 0))

/-- n bytes of a line from byte i on. -/
def lineNat (v : BitVec 512) (i n : Nat) : Nat := v.toNat / 2 ^ (8 * i) % 2 ^ (8 * n)

/-- The bytes of a line that the parts of a remote load read. -/
def partBytes (ps : List (Nat × Nat × Nat)) : List Nat := ps.flatMap fun q => (List.range q.2.1).map (· + q.1)

/-- The row bytes that parts of a line give, put into a row. -/
def rowOfParts (row : Row) (v : BitVec 512) (ps : List (Nat × Nat × Nat)) : Row :=
  ps.foldl (fun r q =>
    mergeRow r (BitVec.ofNat 1024 (lineNat v q.1 q.2.1 * 2 ^ (8 * q.2.2))) (BitVec.ofNat 128 ((2 ^ q.2.1 - 1) * 2 ^ q.2.2))) row

/-- A line of a remote load as its pending result takes it: a register value, bytes of a row, or a block of a VLDT, whose
poison waits until the block is looked at (R184). -/
def Pend.take (p : Pend) (signed : Bool) (ps : List (Nat × Nat × Nat)) (v : BitVec 512) (late : Option LateTrap) : Pend :=
  let left := p.left - 1
  match p.block, ps with
  | some _, q :: _ =>
    let poison := late.any fun t => t.cause == causePoison
    let late := if poison then p.late else if p.late.isSome then p.late else late
    { p with left := left, lines := p.lines ++ [(q.2.2, if poison then none else some v.toNat)], late := late
             answered := left = 0 && late.isSome }
  | _, _ =>
    { p with
      vals := match p.dest, ps with
        | .x _, q :: _ => if late.isSome then [] else [extendTo q.2.1 (lineNat v q.1 q.2.1) signed]
        | _, _ => p.vals
      data := if late.isSome then p.data else rowOfParts p.data v ps
      late := if p.late.isSome then p.late else late
      left := left
      answered := left = 0 }

/-- A line of a remote load delivered to its pending result; the last one lets the result land, or, for a VLDT, its blocks be
looked at. -/
def State.deliver (s : State) (d c i id : Nat) (signed : Bool) (ps : List (Nat × Nat × Nat)) (v : BitVec 512)
    (late : Option LateTrap) : State :=
  let s := s.modPend d c i id fun p => p.take signed ps v late
  match s.findPend d c i id with
  | some p =>
    if p.answered then s.landLater d c i id .variableLoadLanding
    else if p.left = 0 then s.soon { who := { die := d, core := c, slot := i, id := id }, op := .vldt }
    else s
  | none => s

/-- The device-local address of a window offset (R336). -/
def winAddr (w o : Nat) : Word := BitVec.ofNat 64 (0xFFFF020000000000 + w * 2 ^ 32 + o)

/-- What a remote load reads from one line of a window: its first address and its parts. -/
structure LoadLine where
  win : Nat
  line : Nat
  addr : Word
  parts : List (Nat × Nat × Nat)
  deriving DecidableEq, Repr

/-- Bytes o to o + n - 1 of a window, for byte `dst` of a destination, put into their line, which is opened after the others when
it is new (R189). -/
def putPart (ls : List LoadLine) (w o n dst : Nat) (va : Word) : List LoadLine :=
  match ls with
  | [] => [{ win := w, line := o / 64, addr := va, parts := [(o % 64, n, dst)] }]
  | x :: rest =>
    if x.win = w && x.line = o / 64 then { x with parts := x.parts ++ [(o % 64, n, dst)] } :: rest
    else x :: putPart rest w o n dst va

/-- One line of a remote load: from the buffer when it holds every byte, else by a packet that carries the buffered bytes
with it. -/
def State.remoteLine (s : State) (id cls : Nat) (signed : Bool) (pc : Word) (x : LoadLine) : State :=
  let wanted := partBytes x.parts
  let b := s.here.bufferedLine s.cur.slot x.win cls x.line wanted (Config.choice s.fresh)
  let s := s.stamp
  if wanted.all (fun i => b.2.getLsbD i) then s.deliver s.cur.die s.cur.core s.cur.slot id signed x.parts b.1 none
  else
    let p := s.packetOf s.cur.die s.cur.core x.win (x.line * 64) (.load signed x.parts)
    s.newId.inject { p with slot := s.cur.slot, cls := cls, data := b.1, bytes := b.2, owner := id, pc := pc, addr := x.addr }

/-- A remote load in its lines, and its pending result. -/
def State.remoteLoad (s : State) (p : Pend) (cls : Nat) (signed : Bool) (pc : Word) (ls : List LoadLine) : State :=
  let id := s.ids
  ls.foldl (fun s x => s.remoteLine id cls signed pc x) (s.addPend { p with left := ls.length })

/-- R337: the check of a slot's access through a window. -/
def State.winNeed (s : State) (w o n : Nat) (sync : Bool) (va : Word) (rt : Rights) : Ans Unit :=
  if s.winOk (s.here.win w) o n true sync rt.w then .ok () else accessFault va.toNat rt

/-- n bytes that a word reads through a window at issue, within one line, with the mark of poison: after the slot's earlier
accesses of class 0 through windows, at the target, under what the combining buffer holds; a read that would end in error
traps (log 25, DEDUCED). -/
def State.farRead (s : State) (va : Word) (w o n : Nat) : Ans (Nat × Bool) :=
  (s.winNeed w o n false va rightsR).bind fun _ =>
    let d := s.cur.die
    let c := s.cur.core
    let i := s.cur.slot
    if s.writeOut d c i 0 s.ids || s.loadOut d c i 0 fun _ => true then .wait
    else
      let r := s.farReason (s.packetOf d c w (o / 64 * 64) (.load false [(o % 64, n, 0)]))
      if r ≠ 0 then .trap causeRemote va (BitVec.ofNat 64 r)
      else
        let l := s.winLoc (s.here.win w) o
        let b := s.here.bufferedLine i w 0 (o / 64) ((List.range n).map (· + o % 64)) (Config.choice s.fresh)
        let v := mergeLine (BitVec.ofNat 512 (s.peek l n * 2 ^ (8 * (o % 64)))) b.1 b.2
        .ok (lineNat v (o % 64) n, (List.range n).any fun k => !b.2.getLsbD (o % 64 + k) && s.bad (l.plus k) 1)

/-! ### Scalar accesses (R126–R128) -/

/-- A scalar load of n bytes: from the own cistern readable after 3 clk, from elsewhere pending. -/
def State.scalarLoad (s : State) (va : Word) (n : Nat) (signed : Bool) (cls : Nat) (d : BitVec 6) (acquire : Bool) : Out :=
  (s.operand va n n rightsR).run s fun pl =>
    let p : Pend := { Pend.new (.x d.toNat) with acquire := acquire }
    let got := fun (l : Loc) =>
      .next ((s.captureHost s.cur.die l n).loaded { p with
        vals := if s.bad l n then [] else [extendTo n (s.peek l n) signed]
        late := if s.bad l n then some (s.latePoison va) else none }).next4
    match pl with
    | .loc l =>
      match region va with
      | .own o => (s.ownLoad va o n).run s fun v => s.result d (extendTo n v signed) 3
      | _ => if s.syncWaits l || (!acquire && s.classWaits cls) then s.hold else got l
    | .versioned core o =>
      if s.classWaits cls then s.hold else (s.versionedOk core o n va).run s fun _ => got (.cistern s.cur.die core o)
    | .win w o =>
      (s.winNeed w o n false va rightsR).run s fun _ =>
        .next (s.remoteLoad p cls signed s.me.pc (putPart [] w o n 0 va)).next4

/-- R127: n bytes stored where an access to them performs, or posted through a window. -/
def State.storeAt (s : State) (pl : Place) (va : Word) (n v cls : Nat) : Out :=
  match pl with
  | .loc l =>
    match region va with
    | .own o => (s.ownAccess o n rightsW).run s fun _ => .next (s.store l n v).next4
    | _ => if s.syncWaits l || s.classWaits cls then s.hold else .next (s.store l n v).next4
  | .versioned _ _ => (accessFault va.toNat rightsW : Ans Unit).run s fun _ => .next s
  | .win w o =>
    (s.winNeed w o n false va rightsW).run s fun _ =>
      let k := s.here
      if (k.win w).free < k.unitsFor w cls o n || s.mergeWaits w cls (o / 64) then s.hold
      else .next (s.post1 w cls (o / 64) (BitVec.ofNat 512 (v % 2 ^ (8 * n) * 2 ^ (8 * (o % 64)))) (lineMask (o % 64) n)).next4

/-- A scalar store of the low n bytes of a value. -/
def State.scalarStore (s : State) (va : Word) (n : Nat) (v : Word) (cls : Nat) : Out :=
  (s.operand va n n rightsW).run s fun pl => s.storeAt pl va n (v.toNat % 2 ^ (8 * n)) cls

/-! ### Scopes (R287) -/

/-- SCOPE.SG[g]: kind and group. -/
def Core.scope (k : Core) (g : Nat) : Nat × Nat := vget k.sg g (0, 0)

/-- R257: the scope group names a group that does not exist. -/
def State.scopeBad (s : State) (g : Nat) : Bool :=
  let k := s.here.scope g
  k.1 == 5 && (s.myDie.groups.find k.2).isNone

/-- The die of a place. -/
def Loc.die (l : Loc) (own : Nat) : Nat :=
  match l with
  | .cistern d _ _ => d
  | .hbm d _ => d
  | .sync d _ => d
  | _ => own

/-- R287: whether a place lies with the observers of scope entry g: own core, own cluster, own die, gang, system, or the cores
that host a member of a group. -/
def State.inScope (s : State) (g : Nat) (l : Loc) : Bool :=
  let k := s.here.scope g
  let mine := l.die s.cur.die == s.cur.die
  let cores := fun (t : Nat → Bool) => mine && (match l with
    | .cistern _ c _ => t c
    | _ => false)
  match k.1 with
  | 0 => cores fun c => c == s.cur.core
  | 1 => cores fun c => c / 192 == s.cur.core / 192
  | 2 => mine
  | 5 => cores fun c => ((s.myDie.groups.find k.2).map fun x => x.members.any fun m => (m.2 - 1) / 4 == c).getD false
  | _ => mine || s.inGang s.cur.die s.cur.core (l.die s.cur.die)

/-- The places behind a window, one for each core of a stripe set (R336). -/
def State.winTargets (s : State) (w : Window) : List Loc :=
  let d := s.winDie w
  match w.kind with
  | 1 => (List.range (w.field 27 8 + 1)).map fun i => .cistern d (w.cl * 192 + w.field 19 8 + i) 0
  | _ => [s.winLoc w 0]

/-! ### Waiting for earlier accesses (R288, R293–R295, R342) -/

/-- What a fence waits for: entries of the combining buffer, which drain, requests, stores, results in flight, arrivals of
VSTAs, and the windows whose errors it reports. -/
structure FenceSet where
  entry : CombEntry → Bool
  request : Await → Bool
  store : Landing → Bool
  result : Pend → Bool
  arrival : VArrival → Bool
  window : Nat → Bool

/-- A request that writes through a window. -/
def Await.writes (a : Await) : Bool :=
  match a.pkt.kind with
  | .posted => true
  | .flag => true
  | _ => false

/-- A remote load. -/
def Await.loads (a : Await) : Bool :=
  match a.pkt.kind with
  | .load _ _ => true
  | _ => false

/-- An arrival at a phaser. -/
def Await.arrives (a : Await) : Bool :=
  match a.pkt.kind with
  | .arrival _ _ => true
  | _ => false

/-- The first of the windows named that holds an error (R342) (log 77, DEDUCED). -/
def Core.errWindow (k : Core) (t : Nat → Bool) : Option Nat := (List.range 64).find? fun w => (k.win w).err && t w

/-- What a fence still waits for on its slot, besides entries that drain. -/
def State.fenceHeld (s : State) (f : FenceSet) : Bool :=
  let c := s.here
  let me := s.cur.slot
  (c.comb.any fun e => f.entry e && e.slots.contains me) || (c.awaits.any fun a => a.of me && f.request a) ||
    s.me.lands.any f.store || s.me.pend.any f.result || c.arrivals.any fun a => a.slot == me && f.arrival a

/-- A word that first waits for earlier accesses of its slot, and then goes on, or raises the remote error; the entries that it
names drain, whichever slots wrote them (R297) (log 77, DEDUCED). -/
def State.fence (s : State) (f : FenceSet) (k : State → Out) : Out :=
  let s := s.drainWhere s.cur.die s.cur.core f.entry
  if s.fenceHeld f then s.hold
  else
    match s.here.errWindow f.window with
    | some w => s.raise causeRemote (BitVec.ofNat 64 w) (BitVec.ofNat 64 (s.here.win w).reason)
    | none => k s

/-- What a release at scope entry g waits for (R288): core-path and sync-path accesses, and posted writes to places in its
scope (log 77, DEDUCED). -/
def State.releaseSet (s : State) (g : Nat) : FenceSet :=
  { entry := fun e => s.inScope g (s.winLoc (s.here.win e.win) (e.line * 64))
    request := fun a => (a.writes && s.inScope g a.pkt.target) || a.arrives
    store := fun l => l.kind == .store
    result := fun p => p.sync && !p.answered
    arrival := fun _ => true
    window := fun w => (s.here.win w).valid && (s.winTargets (s.here.win w)).any (s.inScope g) }

/-- R298: the entries that remain in the buffer after a FENCES or a release of their slot. -/
def State.fencedEntries (s : State) : State :=
  let mark := fun (e : CombEntry) =>
    if e.slots.contains s.cur.slot then { e with fenced := insertNat e.fenced s.cur.slot } else e
  s.upHere fun k => { k with comb := k.comb.map mark }

/-- A release: the wait of R288. -/
def State.release (s : State) (g : Nat) (k : State → Out) : Out := s.fence (s.releaseSet g) fun s => k s.fencedEntries

/-- R257, R295: the wait of a word that is ordered after every earlier access of its slot, remote loads among them. -/
def State.releaseAll (s : State) (g : Nat) (k : State → Out) : Out :=
  let f := s.releaseSet g
  s.fence { f with request := fun a => f.request a || a.loads } fun s => k s.fencedEntries

end Sys2Proof.Machine
end

