-- ==== Sys2Proof/Machine/Sync.lean ====
section
/-! DEFINITION. The sync engine: what an operation does at its home, and the waiters there (R251–R282). -/

namespace Sys2Proof.Machine
open Sys2Proof

/-! ### Answers (R258, R259) -/

/-- R258: a failure where a phase or a value is returned on success (log 38, DEDUCED). -/
def fail (status : Nat) : Word := 0xFFFFFFFF00000000 + BitVec.ofNat 64 status

/-- What an operation gives: its result values, or a wait in the queue of its variable. -/
inductive SyncAns where
  | done (vals : List Word)
  /-- values and the trap that waits for the first reader (R263) -/
  | poisoned (vals : List Word) (t : LateTrap)
  | wait (r : SyncReq)
  deriving DecidableEq, Repr

/-- The home die of a place (R251); host memory has its home on die A of the requester's package. -/
def State.homeOf (s : State) (l : Loc) (from_ : Nat) : Nat :=
  match l with
  | .sync d _ => d
  | .hbm d _ => d
  | .host _ => s.dieA from_
  | .cistern d _ _ => d
  | .const _ => from_

/-- An answer on its way: to the register of a local request, or as the reply of a packet. -/
def State.answer (s : State) (r : SyncReq) (vals : List Word) (late : Option LateTrap) : State :=
  match r.win with
  | none =>
    (s.modPend r.die r.core r.slot r.id fun p => { p with answered := true, vals := vals, late := late }).landLater
      r.die r.core r.slot r.id .syncResultLands
  | some _ =>
    match s.packets.find r.id with
    | some p =>
      let p := { p with back := true, vals := vals, late := late }
      ({ s with packets := s.packets.set r.id p }).soon (packetEv p .packetForward)
    | none => s

/-- Values answered without a late trap. -/
def State.answered (s : State) (r : SyncReq) (vals : List Word) : State := s.answer r vals none

/-! ### Atomics (R260–R263) -/

/-- R260: the new value of an atomic on the old one. -/
def atomicNew (op : Instr) (old b d : Word) : Word :=
  match op with
  | .amadd .. => old + b
  | .amfadd .. =>
    BitVec.ofNat 64 (fp32.encode (fadd fp32 .rne (fp32.decode (old.toNat % 2 ^ 32)) (fp32.decode (b.toNat % 2 ^ 32))))
  | .ammin .. => if b.slt old then b else old
  | .ammax .. => if old.slt b then b else old
  | .amminn .. => if b.ult old then b else old
  | .ammaxn .. => if old.ult b then b else old
  | .amand .. => old &&& b
  | .amor .. => old ||| b
  | .amxor .. => old ^^^ b
  | .amxch .. => b
  | .amcas .. => if old = d then b else old
  | .amincb .. => if old.ult b then old + 1 else old
  | _ => old

/-- R260: bytes of the operand. -/
def atomicBytes (op : Instr) : Nat :=
  match op with
  | .amfadd .. => 4
  | _ => 8

/-- R263: the poison pattern and its trap. -/
def poisonPattern : Word := 0xFFF8000000000001

/-- R263: the report of n uncorrectable bytes that an operation met at a place; a sync variable, which has no physical
address, by its device-local one (log 95, DEDUCED). -/
def State.syncUe (s : State) (home : Nat) (l : Loc) (n asid : Nat) (who : Word) : State :=
  s.record home { unit := 0x4000, kind := 0x05, action := 2, asid := asid, d0 := who
                  range := l.span n }

/-- R263, R409: the report of an operation of a slot that met an uncorrectable error. -/
def State.syncBad (s : State) (r : SyncReq) (n : Nat) : State :=
  (s.taskFault r.die r.core r.slot).syncUe (s.homeOf r.loc r.die) r.loc n r.asid (BitVec.ofNat 64 (r.slot + r.pc.toNat * 4 % 2 ^ 62))

/-- R261: one atomic at its home. -/
def State.syncAtomic (s : State) (r : SyncReq) : State × SyncAns :=
  let n := atomicBytes r.op
  if s.bad r.loc n then
    (s.syncBad r n, .poisoned [poisonPattern] { cause := causePoison, pc := r.pc, val := r.a, info := 1 })
  else
    let old := BitVec.ofNat 64 (s.peek r.loc n)
    let new := atomicNew r.op old r.b r.d
    ((if new = old then s else (s.poke r.loc n new.toNat).snoop r.loc), .done [old])

/-- R262: the lanes of an AMRED from lane 32 − k on; whether some lane met an uncorrectable error. -/
def State.redLanes (s : State) (r : SyncReq) : Nat → State × Bool
  | 0 => (s, false)
  | k + 1 =>
    let l := 31 - k
    let at_ := r.loc.plus (4 * l)
    let x := if !r.d.getLsbD l then (s, false)
      else if s.bad at_ 4 then (s.syncBad { r with loc := at_ } 4, true)
      else
        let new := fp32.encode (fadd fp32 .rne (fp32.decode (s.peek at_ 4)) (fp32.decode (laneW 4 r.data l)))
        ((s.poke at_ 4 new).snoop at_, false)
    let y := x.1.redLanes r k
    (y.1, x.2 || y.2)

/-! ### Futures (R266–R269) -/

def State.futureFull (s : State) (l : Loc) : Bool := s.peek (l.plus 8) 1 % 2 == 1

/-- A value put into an empty future. -/
def State.futureFill (s : State) (l : Loc) (v : Word) : State := ((s.poke l 8 v.toNat).poke (l.plus 8) 1 1).snoop l

/-- The waiters of a die. -/
def State.dropWaiter (s : State) (home id : Nat) : State :=
  s.modDie home fun x => { x with waiters := x.waiters.filter fun w => w.req.id != id }

/-- The first waiter of a die that a test names. -/
def State.firstWaiter (s : State) (home : Nat) (t : SyncReq → Bool) : Option SyncReq :=
  ((s.die home).waiters.map (·.req)).find? t

/-- A waiter joins the queue of its home. -/
def State.enqueueWaiter (s : State) (home : Nat) (r : SyncReq) : State :=
  s.modDie home fun x => { x with waiters := x.waiters ++ [{ req := r }] }

def isFtget (i : Instr) : Bool := match i with | .ftget .. => true | _ => false
def isFtsetw (i : Instr) : Bool := match i with | .ftsetw .. => true | _ => false

/-- R267: FTSET at an empty future: to the first FTGET waiter, or into the future. -/
def State.futureSet (s : State) (home : Nat) (l : Loc) (v : Word) : State :=
  match s.firstWaiter home fun w => isFtget w.op && w.loc == l with
  | some w => (s.dropWaiter home w.id).answered w [v]
  | none => s.futureFill l v

/-- R268, R269: a full future consumed; the first queued FTSETW then performs. -/
def State.futureTake (s : State) (home : Nat) (l : Loc) : State :=
  let s := (s.poke (l.plus 8) 1 0).snoop l
  match s.firstWaiter home fun w => isFtsetw w.op && w.loc == l with
  | some w => ((s.dropWaiter home w.id).futureSet home l w.b).answered w [0]
  | none => s

/-! ### Phasers (R270–R277) -/

/-- The fields of a phaser line (R270). -/
structure Phaser where
  ph : Nat
  ns : Nat
  nw : Nat
  nsw : Nat
  arr : Nat
  ds : Int
  dw : Int
  dsw : Int
  valid : Bool
  nexpPend : Bool
  lcode : Nat
  errPh : Nat
  exp : Nat
  byt : Nat
  nexp : Nat
  waiters : Nat
  deriving DecidableEq, Repr

/-- A 16-bit field as a signed number. -/
def signed16 (v : Nat) : Int := if 2 ^ 15 ≤ v then (v : Int) - 2 ^ 16 else v

/-- R270: a line's 64 bytes as a phaser. -/
def Phaser.ofNat (v : Nat) : Phaser :=
  let f := fun b n => v / 2 ^ (8 * b) % 2 ^ (8 * n)
  { ph := f 0 4, ns := f 4 2, nw := f 6 2, nsw := f 8 2, arr := f 10 2
    ds := signed16 (f 12 2), dw := signed16 (f 14 2), dsw := signed16 (f 16 2)
    valid := f 18 1 % 2 == 1, nexpPend := f 18 1 / 2 % 2 == 1, lcode := f 19 1, errPh := f 20 4
    exp := f 24 8, byt := f 32 8, nexp := f 40 8, waiters := f 48 4 }

/-- R270: the 64 bytes of a phaser. -/
def Phaser.toNat (p : Phaser) : Nat :=
  let g := fun b n v => v % 2 ^ (8 * n) * 2 ^ (8 * b)
  let h := fun (i : Int) => (i % 65536).toNat
  g 0 4 p.ph + g 4 2 p.ns + g 6 2 p.nw + g 8 2 p.nsw + g 10 2 p.arr + g 12 2 (h p.ds) + g 14 2 (h p.dw) +
  g 16 2 (h p.dsw) + g 18 1 ((if p.valid then 1 else 0) + if p.nexpPend then 2 else 0) + g 19 1 p.lcode +
  g 20 4 p.errPh + g 24 8 p.exp + g 32 8 p.byt + g 40 8 p.nexp + g 48 4 p.waiters

/-- A phaser with nothing in it. -/
def Phaser.zero : Phaser := Phaser.ofNat 0

def State.phaser (s : State) (l : Loc) : Phaser := Phaser.ofNat (s.peek l 64)
def State.setPhaser (s : State) (l : Loc) (p : Phaser) : State := (s.poke l 64 p.toNat).snoop l

/-- R271: the open phase completes. -/
def Phaser.completes (p : Phaser) (engine : Bool) : Bool :=
  p.ns + p.nsw ≤ p.arr && p.exp ≤ p.byt && (0 < p.ns + p.nsw + p.exp || engine)

/-- A member count with its pending change. -/
def memberSum (n : Nat) (d : Int) : Nat := ((n : Int) + d).toNat

/-- R272, R273: the pending changes of a phase boundary. -/
def Phaser.boundary (p : Phaser) : Phaser :=
  { p with ns := memberSum p.ns p.ds, nw := memberSum p.nw p.dw, nsw := memberSum p.nsw p.dsw, ds := 0, dw := 0, dsw := 0
           exp := if p.nexpPend then p.nexp else p.exp, nexpPend := false
           ph := (p.ph + 1) % 2 ^ 32 }

/-- R272: completion. -/
def Phaser.complete (p : Phaser) : Phaser :=
  { p with arr := p.arr - (p.ns + p.nsw), byt := if 0 < p.exp then p.byt - p.exp else 0 }.boundary

/-- R273: completion in error (log 79, DEDUCED). -/
def Phaser.completeError (p : Phaser) (code : Nat) : Phaser :=
  { p with errPh := p.ph, lcode := code, arr := 0, byt := 0 }.boundary

/-- R277: phase p has completed when the number of completed phases is ph. -/
def phasePassed (ph p : Nat) : Bool :=
  let d := (ph + 2 ^ 32 - p % 2 ^ 32) % 2 ^ 32
  0 < d && d < 2 ^ 31

/-- R273: what a wait for a completed phase returns. -/
def Phaser.codeOf (p : Phaser) (phase : Nat) : Word := if phase % 2 ^ 32 = p.errPh then BitVec.ofNat 64 p.lcode else 0

/-- A waiter that waits for a phase: a PHWAIT, or a PHARW whose arrival has performed. -/
def waitsPhase (r : SyncReq) : Bool :=
  match r.op with
  | .phwait .. => true
  | .pharw .. => r.arrived
  | _ => false

/-- A relative arrival that waits for its phase to open (R279). -/
def waitsArrival (r : SyncReq) : Bool :=
  match r.op with
  | .pharv .. => true
  | .pharw .. => !r.arrived
  | _ => false

/-- WAITERS of a line set to the slots that wait on it (R270). -/
def State.countWaiters (s : State) (home : Nat) (l : Loc) : State :=
  let n := ((s.die home).waiters.filter fun w => w.req.loc == l && (waitsPhase w.req || waitsArrival w.req)).length
  (s.poke (l.plus 48) 4 n).snoop l

/-- Waiters that a test names are answered, in their order (log 79, DEDUCED). -/
def State.releaseWhere (s : State) (home : Nat) (t : SyncReq → Bool) (v : SyncReq → Word) : State :=
  (((s.die home).waiters.map (·.req)).filter t).foldl (fun s r => (s.dropWaiter home r.id).answered r [v r]) s

/-- R271: a member arrival in the open phase. -/
def State.memberArrive (s : State) (l : Loc) (bytes : Nat) : State :=
  let p := s.phaser l
  s.setPhaser l { p with arr := (p.arr + 1) % 2 ^ 16, byt := (p.byt + bytes) % 2 ^ 64 }

/-- R259: the mark of a PHARW whose arrival has performed. -/
def State.markArrived (s : State) (r : SyncReq) (ph : Nat) : State :=
  s.modSlot r.die r.core r.slot fun x => { x with arrived := some ph, arrivedAt := r.pc.toNat }

/-- R259: the mark of the PHARW at the program counter goes with its end. -/
def Slot.unmark (x : Slot) : Slot := if x.arrivedAt = x.pc.toNat then { x with arrived := none } else x

/-- R279: the relative arrivals that wait for a phase which has completed meanwhile come late. -/
def State.lateArrivals (s : State) (home : Nat) (l : Loc) : State :=
  let ph := (s.phaser l).ph
  (s.releaseWhere home (fun r => waitsArrival r && r.loc == l && phasePassed ph r.n) fun _ => fail 3).countWaiters home l

/-- R272: completions of a phaser and the relative arrivals that its new phase admits, at most k of them. A phase that
completes again does so in the next clk. -/
def State.phaserRun (s : State) (home : Nat) (l : Loc) (engine : Bool) : Nat → State
  | 0 => s
  | k + 1 =>
    let p := s.phaser l
    let s :=
      if p.completes engine then
        let q := p.complete
        let s := (s.setPhaser l q).releaseWhere home (fun r => waitsPhase r && r.loc == l && phasePassed q.ph r.n) fun _ => 0
        let s := (s.countWaiters home l).lateArrivals home l
        if q.completes false then
          s.later 1 { who := { die := home, n := 1, id := (match l with | .sync _ o => o | _ => 0) }, op := .engineArrival }
        else s
      else s
    match s.firstWaiter home fun r => waitsArrival r && r.loc == l && r.n % 2 ^ 32 == (s.phaser l).ph with
    | none => s
    | some r =>
      let ph := (s.phaser l).ph
      let s := (s.dropWaiter home r.id).memberArrive l (r.b.toNat % 2 ^ 40)
      let s := match r.op with
        | .pharw .. => (s.markArrived r ph).enqueueWaiter home { r with arrived := true, n := ph }
        | _ => s.answered r [BitVec.ofNat 64 ph]
      (s.countWaiters home l).phaserRun home l false k

/-- The check after an arrival, with room for every waiter of the home; an uncorrectable line is left alone (R263). -/
def State.afterArrival (s : State) (home : Nat) (l : Loc) (engine : Bool) : State :=
  if s.bad l 64 then s else s.phaserRun home l engine ((s.die home).waiters.length + 1)

/-- R270: a report of an arrival at a phaser that is not valid. -/
def State.deadArrival (s : State) (home o : Nat) : State :=
  s.record home { unit := 0x4000, kind := 0x25, d0 := BitVec.ofNat 64 (o / 64) }

/-- R271: an engine arrival of bytes at the line at an offset; at an uncorrectable line it is dropped, with a report (R255,
R263). -/
def State.engineArrive (s : State) (home o bytes : Nat) : State :=
  let l := Loc.sync home o
  let p := s.phaser l
  if s.bad l 64 then s.syncUe home l 64 0 0
  else if !p.valid then s.deadArrival home o
  else (s.setPhaser l { p with byt := (p.byt + bytes) % 2 ^ 64 }).afterArrival home l true

/-- R273: an error arrival; at an uncorrectable line it is dropped, with a report (R255, R263). -/
def State.errorArrive (s : State) (home o code : Nat) : State :=
  let l := Loc.sync home o
  let p := s.phaser l
  if s.bad l 64 then s.syncUe home l 64 0 0
  else if !p.valid then s.deadArrival home o
  else
    let q := p.completeError code
    let s := (s.setPhaser l q).releaseWhere home (fun r => waitsPhase r && r.loc == l) fun _ => BitVec.ofNat 64 code
    ((s.countWaiters home l).lateArrivals home l).phaserRun home l false ((s.die home).waiters.length + 1)

/-- An engine arrival on its way to a phaser of a die, for which something may wait on a core: 2 + 2·n for the arrival n of a
VSTA, 3 + 2·n for the copy n (R185, R240). -/
def State.sendArrivalFor (s : State) (die core handle bytes ack : Nat) : State :=
  s.soon { who := { die := die, core := core, id := handle * 64, n := ack, val := BitVec.ofNat 64 bytes }, op := .engineArrival }

/-- An engine arrival on its way to a phaser of a die; nothing for handle 0 (R192, R254). -/
def State.sendArrival (s : State) (die handle bytes : Nat) : State :=
  if handle = 0 then s else s.sendArrivalFor die 0 handle bytes 0

/-- An error arrival on its way. -/
def State.sendError (s : State) (die handle code : Nat) : State :=
  if handle = 0 then s else s.soon { who := { die := die, id := handle * 64, val := BitVec.ofNat 64 code }, op := .phaserErrorArrival }

/-- R274: PHNEW. -/
def State.syncPhnew (s : State) (r : SyncReq) : State × SyncAns :=
  let p := s.phaser r.loc
  let busy : Int := p.ns + p.nw + p.nsw + p.ds + p.dw + p.dsw
  if r.b.toNat / 4 != 0 then (s, .done [4])
  else if p.valid && (0 < busy || 0 < p.waiters) then (s, .done [1])
  else
    let m := r.b.toNat % 4
    (s.setPhaser r.loc { Phaser.zero with
      valid := true, ns := if m = 1 then 1 else 0, nw := if m = 2 then 1 else 0, nsw := if m = 3 then 1 else 0 }, .done [0])

/-- R275: the number of members that b names; none when its group does not exist. -/
def State.membersNamed (s : State) (die g : Nat) : Option Nat :=
  if g = 0 then some 1 else ((s.die die).groups.find g).map (·.members.length)

/-- R275: PHREG (sign 1) and PHDROP (sign −1). A change that its signed 16-bit field cannot hold (R270) is refused as a count out of
range is (log 93, DESIGN CHOICE). -/
def State.syncMembers (s : State) (r : SyncReq) (sign : Int) : State × SyncAns :=
  let p := s.phaser r.loc
  let m := r.b.toNat % 4
  let g := r.b.toNat / 2 ^ 32 % 2 ^ 16
  match s.membersNamed r.die g with
  | none => (s, .done [fail 4])
  | some n =>
    if m = 0 || r.b.toNat % 2 ^ 32 / 4 != 0 || r.b.toNat / 2 ^ 48 != 0 || !p.valid then (s, .done [fail 4])
    else
      let cur : Nat × Int := if m = 1 then (p.ns, p.ds) else if m = 2 then (p.nw, p.dw) else (p.nsw, p.dsw)
      let new := cur.2 + sign * n
      let total := (cur.1 : Int) + new
      if total < 0 || 65535 < total || new < -32768 || 32767 < new then (s, .done [fail 1])
      else
        (s.setPhaser r.loc (if m = 1 then { p with ds := new } else if m = 2 then { p with dw := new } else { p with dsw := new }),
         .done [BitVec.ofNat 64 ((p.ph + 1) % 2 ^ 32)])

/-- R276: PHBYT. -/
def State.syncPhbyt (s : State) (r : SyncReq) : State × SyncAns :=
  let p := s.phaser r.loc
  if 2 ^ 40 ≤ r.b.toNat || !p.valid then (s, .done [fail 4])
  else if p.arr = 0 && p.byt = 0 then (s.setPhaser r.loc { p with exp := r.b.toNat }, .done [BitVec.ofNat 64 p.ph])
  else (s.setPhaser r.loc { p with nexp := r.b.toNat, nexpPend := true }, .done [BitVec.ofNat 64 ((p.ph + 1) % 2 ^ 32)])

/-- R277, R279: PHARV and PHARW: arrive, wait for the phase to open, or come late. -/
def State.syncArrive (s : State) (r : SyncReq) (thenWait : Bool) : State × SyncAns :=
  let home := s.homeOf r.loc r.die
  let p := s.phaser r.loc
  if !p.valid then (s, .done [if thenWait then 4 else fail 4])
  else if r.rel && p.ph != r.n % 2 ^ 32 then
    if phasePassed p.ph r.n then (s, .done [fail 3]) else (s, .wait r)
  else
    let s := s.memberArrive r.loc (r.b.toNat % 2 ^ 40)
    if thenWait then
      let r' := { r with arrived := true, n := p.ph }
      let s := (s.markArrived r p.ph).enqueueWaiter home r'
      ((s.countWaiters home r.loc).afterArrival home r.loc false, .wait r')
    else (s.afterArrival home r.loc false, .done [BitVec.ofNat 64 p.ph])

/-- R277: PHWAIT, or the wait of a PHARW that has arrived. -/
def State.syncPhwait (s : State) (r : SyncReq) : State × SyncAns :=
  let p := s.phaser r.loc
  if !p.valid then (s, .done [4])
  else if phasePassed p.ph r.n then (s, .done [p.codeOf r.n])
  else (s, .wait r)

/-! ### Compatibility barriers and routing counters (R280–R282) -/

/-- R280: BRCMP (log 38, DEDUCED). -/
def State.syncBrcmp (s : State) (r : SyncReq) : State × SyncAns :=
  let slot := r.b.toNat % 4
  let wait := r.b.toNat / 4 % 2 == 1
  let c := r.b.toNat / 2 ^ 32 % 2 ^ 16
  let at_ := r.loc.plus (16 * slot)
  let home := s.homeOf r.loc r.die
  let arr := s.peek (at_.plus 4) 2
  let s := if arr = 0 && c != 0 then s.poke (at_.plus 6) 2 c else s
  let cnt := s.peek (at_.plus 6) 2
  if cnt = 0 then (s, .done [fail 4])
  else
    let g := s.peek at_ 4
    let s :=
      if (arr + 1) % 2 ^ 16 = cnt then
        ((s.poke (at_.plus 4) 2 0).poke at_ 4 ((g + 1) % 2 ^ 32)).releaseWhere home
          (fun w => w.loc == r.loc && (match w.op with | .brcmp .. => w.b.toNat % 4 == slot && w.n == g | _ => false))
          fun w => BitVec.ofNat 64 w.n
      else s.poke (at_.plus 4) 2 (arr + 1)
    let s := s.snoop at_
    if wait && s.peek at_ 4 = g then (s, .wait { r with n := g }) else (s, .done [BitVec.ofNat 64 g])

/-- R281: one routing counter, saturating. -/
def State.syncRcinc (s : State) (r : SyncReq) : State × SyncAns :=
  if 2 ^ 14 ≤ r.a.toNat then (s, .done [fail 4])
  else
    let i := r.a.toNat
    let old := (s.die r.die).rc.get 0 i
    (s.modDie r.die fun x => { x with rc := x.rc.set i (BitVec.ofNat 32 (min (2 ^ 32 - 1) (old.toNat + r.b.toNat % 2 ^ 32))) },
     .done [zext64 old])

/-- R282: the 64 counters of an array as 256 bytes, and the die with them cleared. -/
def State.takeCounters (s : State) (die a : Nat) : Nat × State :=
  let x := s.die die
  ((List.range 64).foldl (fun v k => v + (x.rc.get 0 (a * 64 + k)).toNat * 2 ^ (32 * k)) 0,
   s.modDie die fun x => { x with rc := (List.range 64).foldl (fun t k => t.erase (a * 64 + k)) x.rc })

/-! ### The operation at its home -/

/-- R265: WAITA reads its word on issue and on every wake. -/
def State.syncWaita (s : State) (r : SyncReq) : State × SyncAns :=
  if s.bad r.loc 8 then (s.syncBad r 8, .done [7])
  else if BitVec.ofNat 64 (s.peek r.loc 8) ≠ r.b then (s, .done [0])
  else (s, .wait r)

/-- R269: what a future operation at an uncorrectable line answers; FTTRY leaves 0 in X[xd], as for a future that is not full (R268;
log 101, DEDUCED). -/
def futureBad (r : SyncReq) : SyncAns :=
  match r.op with
  | .ftget .. => .poisoned [poisonPattern] { cause := causePoison, pc := r.pc, val := r.a, info := 1 }
  | .fttry .. => .done [0, 7]
  | _ => .done [7]

/-- One operation at its home. -/
def State.performSync (s : State) (r : SyncReq) : State × SyncAns :=
  let home := s.homeOf r.loc r.die
  let future := fun (k : State × SyncAns) =>
    match r.loc with
    | .sync d o =>
      let l := Loc.sync d (o / 64 * 64)
      if s.bad l 64 then (s.syncBad { r with loc := l } 64, futureBad r) else k
    | _ => k
  let line := fun (bad : Word) (k : State × SyncAns) => if s.bad r.loc 64 then (s.syncBad r 64, SyncAns.done [bad]) else k
  match r.op with
  | .amred .. =>
    let x := s.redLanes r 32
    (x.1, .done [if x.2 then 7 else 0])
  | .lda .. =>
    (s, if s.bad r.loc 8 then .poisoned [] { cause := causePoison, pc := r.pc, val := r.a, info := 0 }
        else .done [BitVec.ofNat 64 (s.peek r.loc 8)])
  | .waita .. => s.syncWaita r
  | .ftset .. => future (if s.futureFull r.loc then (s, .done [1]) else (s.futureSet home r.loc r.b, .done [0]))
  | .ftsetw .. => future (if s.futureFull r.loc then (s, .wait r) else (s.futureSet home r.loc r.b, .done [0]))
  | .ftget .. =>
    future (if s.futureFull r.loc then
      let v := BitVec.ofNat 64 (s.peek r.loc 8)
      (s.futureTake home r.loc, .done [v])
    else (s, .wait r))
  | .fttry .. =>
    future (if s.futureFull r.loc then
      let v := BitVec.ofNat 64 (s.peek r.loc 8)
      (s.futureTake home r.loc, .done [v, 0])
    else (s, .done [0, 2]))
  | .phnew .. => line 7 (s.syncPhnew r)
  | .phreg .. => line (fail 7) (s.syncMembers r 1)
  | .phdrop .. => line (fail 7) (s.syncMembers r (-1))
  | .pharv .. => line (fail 7) (s.syncArrive r false)
  | .pharw .. => line 7 (if r.arrived then s.syncPhwait r else s.syncArrive r true)
  | .phwait .. => line 7 (s.syncPhwait r)
  | .phbyt .. => line (fail 7) (s.syncPhbyt r)
  | .brcmp .. => line (fail 7) (s.syncBrcmp r)
  | .rcinc .. => s.syncRcinc r
  | _ => s.syncAtomic r

/-- An operation performed at its home, with its answer sent or its place in the queue taken. A PHARW has taken its
place with its arrival. -/
def State.homeSync (s : State) (r : SyncReq) : State :=
  let x := s.performSync r
  match x.2 with
  | .done vs => x.1.answered r vs
  | .poisoned vs t => x.1.answer r vs (some t)
  | .wait r' =>
    let home := s.homeOf r.loc r.die
    match r.op with
    | .pharw .. => if r'.arrived && !r.arrived then x.1 else (x.1.enqueueWaiter home r').countWaiters home r.loc
    | .phwait .. => (x.1.enqueueWaiter home r').countWaiters home r.loc
    | .pharv .. => (x.1.enqueueWaiter home r').countWaiters home r.loc
    | _ => x.1.enqueueWaiter home r'

end Sys2Proof.Machine
end

