-- ==== Sys2Proof/Machine/Slots.lean ====
section
/-! DEFINITION. Landings, and the steps that a slot takes without a word: landing, waking, switching (R15, R16, R25,
R26, R31, R36, R140–R142). -/

namespace Sys2Proof.Machine
open Sys2Proof

/-! ### Landings -/

/-- A latch written with a result (log 76, DEDUCED). -/
def Core.setLatch (k : Core) (unit : Nat) (r : Row) : Core := { k with latch := k.latch.setIfInBounds unit (some r) }

/-- Masked bytes of a register-space row written (R25, R28); whole units written lose their poison (R482). -/
def Core.writeRow (k : Core) (n : Nat) (r : Row) (m : BitVec 128) : Core :=
  let a := k.part.rowByte n
  { k with cistern := (k.cistern.writeNat a 128 (mergeRow (k.row n) r m).toNat).clean unitSram a (if m = BitVec.allOnes 128 then 128 else 0) }

/-- The bytes of a row that a mask names, as cistern offsets from a. -/
def rowCells (a : Nat) (r : Row) (m : BitVec 128) : List (Nat × Byte) :=
  (List.range 128).filterMap fun i => if m.getLsbD i then some (a + i, r.extractLsb' (8 * i) 8) else none

/-- R26, R483: bytes stored by a slot at cistern offsets of a core; a unit left uncorrectable is reported. -/
def State.storeCells (s : State) (d c slot : Nat) (pc : Word) (cs : List (Nat × Byte)) : State :=
  let lines := cs.foldl (fun ls b => insertNat ls (b.1 / 64)) []
  let s := s.modCore d c fun k =>
    { k with cistern := k.cistern.putCells unitSram cs
             stored := (s.clk, (if k.stored.1 = s.clk then k.stored.2 else []) ++ lines) }
  if (s.core d c).cistern.cellsBad unitSram cs then
    s.record s.cur.die { unit := unitOfCore s.cur.core, kind := 0x04, action := 2, tcore := c
                         range := (Loc.cistern d c 0).cellSpan cs
                         d0 := BitVec.ofNat 64 (slot + pc.toNat * 4 % 2 ^ 62) }
  else s

/-- A landing performs at a core: its row, its latch, or its store with the count of R310 and the arrival of R185 (log
76, DEDUCED). -/
def State.performLanding (s : State) (d c : Nat) (l : Landing) : State :=
  let latch := fun (k : Core) => if l.sw = k.sw then k.setLatch l.unit l.data else k
  match l.kind with
  | .row => s.modCore d c fun k => latch (k.writeRow l.row l.data l.bytes)
  | .latch => s.modCore d c latch
  | .store =>
    let s := s.storeCells d c s.cur.slot l.pc l.cells
    let s := if l.fromRec then s.modCore d c latch else s
    let s := s.countCells 2 d c l.cells
    match l.arrival with
    | some (p, n) => s.startArrival d c s.cur.slot p n l.cls []
    | none => s

/-- The landing of a slot with a number leaves the slot and performs, if it is there and due. -/
def State.land (s : State) : State :=
  match s.me.lands.find? fun l => l.id == s.cur.id && l.due ≤ s.clk with
  | none => s
  | some l =>
    (s.upMe fun x => { x with lands := x.lands.filter fun y => y.id != l.id }).performLanding s.cur.die s.cur.core l

/-- RESULT_LANDING (R25, R28). -/
def execResultLanding (s : State) : Out := .next s.land

/-- CISTERN_STORE_PERFORM (R26). -/
def execCisternStorePerform (s : State) : Out := .next s.land

/-- LANDING_RECORD_ENTRY_LANDS (R36). -/
def execLandingRecordEntryLands (s : State) : Out := .next s.land

/-- Whether a step is a landing. -/
def landingOp (op : Instr) : Bool := op == .resultLanding || op == .cisternStorePerform || op == .landingRecordEntryLands

/-- R28: the landing of a record entry put before the landings of its core that fall due in the same clk and were issued
later. -/
def insertLanding (t : Nat) (e : Ev) : List (Nat × Ev) → List (Nat × Ev)
  | [] => [(t, e)]
  | (u, f) :: rest =>
    if u = t ∧ landingOp f.op ∧ f.who.die = e.who.die ∧ f.who.core = e.who.core ∧ e.who.id < f.who.id then (t, e) :: (u, f) :: rest
    else (u, f) :: insertLanding t e rest

/-- R36: the landing record of a slot whose word at the saved PC issues starts on its way; among the landings of a clk its
entries keep their place in the issue order (R28). -/
def State.launchRecord (s : State) : State :=
  let x := s.me
  if x.armed then
    let ls := x.lrec.map fun l => { l with due := s.clk + l.due, fromRec := true, sw := s.here.sw }
    let s := s.upMe fun x => { x with lands := x.lands ++ ls, lrec := [], armed := false }
    { s with agenda := ls.foldl (fun a l =>
        insertLanding l.due { who := { s.cur with id := l.id }, op := .landingRecordEntryLands } a) s.agenda }
  else s

/-- R29: landings outstanding once the record of an armed slot starts on its way. -/
def Slot.outstanding (x : Slot) : Nat := x.lands.length + (if x.armed then x.lrec.length else 0)

/-! ### Variable-latency results (R31, R119, R259) -/

/-- The values of an answer written to their registers, whose marks of earlier results go (R263); a late trap waits in the first
of them for its reader, which keeps its old value when no value came (R128, R263). A load that writes only the latch of its
unit has no row in which a late fault could wait: the fault is dropped (log 88, DESIGN CHOICE). -/
def Slot.receive (x : Slot) (p : Pend) : Slot :=
  let put := fun (x : Slot) (n : Nat) (v : Option Word) =>
    match v with
    | some v => { x.wx (BitVec.ofNat 6 n) v with lateX := x.lateX.filter fun e => e.1 != n }
    | none => x
  let mark := fun (x : Slot) (n : Nat) =>
    match p.late with
    | some t => if n = 0 then x else { x with lateX := (x.lateX.filter fun e => e.1 != n) ++ [(n, t)] }
    | none => x
  let x := { x with pend := x.pend.filter fun q => q.id != p.id }
  match p.dest with
  | .x n => mark (put x n p.vals.head?) n
  | .x2 n m => put (put x n p.vals.head?) m (p.vals[1]?)
  | .row n => match p.late with
    | some t => { x with lateRow := (x.lateRow.filter fun e => e.1 != n) ++ [(n, t)] }
    | none => x
  | .latch => x
  | .none => x

/-- A loaded row written into the register space and into the latch of the mem unit (R24, R31). -/
def State.receiveRow (s : State) (p : Pend) : State :=
  let latch := fun (k : Core) => if p.sw = k.sw then k.setLatch 7 (mergeRow 0 p.data p.bytes) else k
  match p.dest, p.late with
  | .row n, none => s.upHere fun k => latch (k.writeRow n p.data p.bytes)
  | .latch, none => s.upHere latch
  | _, _ => s

/-- VARIABLE_LOAD_LANDING (R31). -/
def execVariableLoadLanding (s : State) : Out :=
  match s.findPend s.cur.die s.cur.core s.cur.slot s.cur.id with
  | none => .next s
  | some p =>
    if !p.answered then .next s
    else if s.here.rowHeld p then .next (s.later 1 { who := s.cur, op := .variableLoadLanding })
    else .next ((s.receiveRow p).upMe fun x => x.receive p)

/-- The waiting slot goes on after its word (R15, R36). -/
def Slot.proceed (x : Slot) : Slot := { x.unmark with st := .ready, wait := .none, pc := alignPc (x.pc + 4), xl := [] }

/-- SYNC_RESULT_LANDS (R259): the registers are written; a slot that waited for this answer goes on. -/
def execSyncResultLands (s : State) : Out :=
  match s.findPend s.cur.die s.cur.core s.cur.slot s.cur.id with
  | none => .next s
  | some p =>
    if !p.answered then .next s
    else
      let s := s.upMe fun x => x.receive p
      if s.me.wait = .answer s.cur.id then .next (s.upMe Slot.proceed) else .next s

/-- TEMPLATE_LOAD_LANDS (R153): the oldest load of the template entry lands in the store; poisoned data leave the 16 bytes that
the entry held (log 86, DESIGN CHOICE). -/
def execTemplateLoadLands (s : State) : Out :=
  let i := s.cur.n
  let e := s.here.tmpl.get {} i
  match e.loading with
  | [] => .next s
  | (t, bad) :: rest =>
    let e' : TemplateEntry := match bad with
      | some a => { e with poisoned := some a, loading := rest }
      | none => { t := t, poisoned := none, loading := rest }
    .next (s.upHere fun k => { k with tmpl := k.tmpl.set i e' })

/-! ### Waking and switching -/

/-- BLOCKED_SLOT_WAKE (R15): the scan has found that the word of the slot can issue. -/
def execBlockedSlotWake (s : State) : Out :=
  if s.me.st = .blocked ∧ s.me.wait = .word then .next (s.upMe fun x => { x with st := .ready, wait := .none }) else .next s

/-- IDLE_EXPIRE (R140). -/
def execIdleExpire (s : State) : Out :=
  match s.me.st, s.me.wait with
  | .blocked, .idle t => if t ≤ s.clk then .next (s.upMe Slot.proceed) else .next s
  | _, _ => .next s

/-- PARKED_SLOT_WAKE (R141): the future has become full. -/
def execParkedSlotWake (s : State) : Out :=
  match s.me.st, s.me.wait with
  | .parked, .park o => if s.futureFull (.sync s.cur.die o) then .next (s.upMe Slot.proceed) else .next s
  | _, _ => .next s

/-- R16: the next READY slot after the one that was ACTIVE last, in increasing number from there. -/
def Core.nextReady (k : Core) : Option Nat :=
  [1, 2, 3, 4].findSome? fun i =>
    let n := (k.last + i) % 4
    let x := k.slot n
    if x.st == .ready && !x.stopped then some n else none

/-- R16: a change of slot takes this clk and discards the latches; the slot that left ACTIVE resumes without one. -/
def Core.switchSlot (k : Core) (clk : Nat) : Core :=
  match k.active, k.nextReady with
  | none, some n =>
    let k' := k.modSlot n fun x => { x with st := .active }
    if n = k.last then k'
    else { k' with last := n, switching := some (n, clk + 1), sw := k.sw + 1, latch := Vector.replicate 8 none }
  | _, _ => k

/-- SLOT_SWITCH (R16). -/
def execSlotSwitch (s : State) : Out := .next (s.upHere fun k => k.switchSlot s.clk)

/-! ### The end of a thread (R142, R145) -/

/-- R145: a thread leaves a group of its die, which dissolves when it is empty. -/
def Die.leave (x : Die) (g : Nat) (who : Nat × Nat) : Die :=
  match x.groups.find g with
  | none => x
  | some gr =>
    let ms := gr.members.filter fun m => m.2 != who.1 * 4 + who.2 + 1
    { x with groups := if ms.isEmpty then x.groups.erase g else x.groups.set g { members := ms } }

/-- R142: the slot is FREE once its landings and pending loads have ended; its groups are left and its loops dropped. -/
def State.freeSlot (s : State) : State :=
  let s := s.upDie fun x => (x.groups.entries.map (·.1)).foldl (fun x g => x.leave g (s.cur.core, s.cur.slot)) x
  s.upMe fun x => { x with st := .free, wait := .none, lsDepth := 0, lrec := [], armed := false, lateX := [], lateRow := [] }

/-- EXIT_FINISH (R142). -/
def execExitFinish (s : State) : Out :=
  if s.me.wait = .exit ∧ s.me.lands.isEmpty ∧ s.me.pend.isEmpty then .next s.freeSlot else .next s

end Sys2Proof.Machine
end

