-- ==== Sys2Proof/Machine/Template.lean ====
section
/-! DEFINITION. Templates: their fields, what a patch word or ECMD amends, and the moves of a vector template (R87, R88,
R90–R95, R192, R193). -/

namespace Sys2Proof.Machine
open Sys2Proof

/-! ### Fields and pairs (R87, R192, R193) -/

/-- A template with n bits from lo on replaced. -/
def Template.put (t : Template) (lo n v : Nat) : Template :=
  let k : Template := BitVec.ofNat 128 ((2 ^ n - 1) * 2 ^ lo)
  (t &&& ~~~k) ||| BitVec.ofNat 128 (v % 2 ^ n * 2 ^ lo)

/-- The fields of a template opcode in the order of their selects (lowest bit, width), and the selects of pairs A and B
from bit 0 up. -/
structure FieldTable where
  fields : List (Nat × Nat)
  pairA : List Nat
  pairB : List Nat
  deriving DecidableEq, Repr

/-- The matrix opcodes (R200–R218). -/
def matrixFields (op : Nat) : FieldTable :=
  match op with
  | 1 => { fields := [(104, 16), (96, 8), (80, 16), (79, 1), (72, 7), (66, 6)], pairA := [1, 2], pairB := [0] }
  | 2 => { fields := [(104, 16)], pairA := [0], pairB := [] }
  | 3 => { fields := [(104, 16), (96, 8), (86, 10), (76, 10), (75, 1), (73, 2), (65, 8), (64, 1), (48, 16), (34, 14),
                      (20, 14), (13, 7)], pairA := [1, 2, 3], pairB := [8, 10] }
  | 4 => { fields := [(104, 16), (96, 8)], pairA := [1], pairB := [0] }
  | 5 => { fields := [(104, 16), (96, 8), (86, 10), (76, 10), (68, 8), (52, 16), (47, 5), (46, 1), (43, 3), (42, 1),
                      (41, 1), (40, 1), (39, 1), (31, 8), (7, 24)], pairA := [1, 2, 3, 4, 5], pairB := [14] }
  | 6 => { fields := [(104, 16)], pairA := [0], pairB := [] }
  | 7 => { fields := [(104, 16), (103, 1)], pairA := [1], pairB := [0] }
  | 8 => { fields := [(104, 16), (96, 8), (80, 16), (79, 1), (73, 6), (67, 6), (64, 3), (40, 24)], pairA := [1, 2]
           pairB := [4, 5] }
  | 9 => { fields := [(104, 16), (98, 6), (92, 6), (91, 1), (83, 8), (67, 16), (66, 1)], pairA := [4, 5]
           pairB := [1, 2, 3] }
  | 10 => { fields := [(104, 16)], pairA := [0], pairB := [] }
  | 11 => { fields := [(104, 16), (96, 8), (80, 16)], pairA := [1, 2], pairB := [0] }
  | _ => { fields := [], pairA := [], pairB := [] }

/-- The copy opcodes (R233). -/
def copyFields (op : Nat) : FieldTable :=
  if op = 8 then { fields := [(104, 16), (88, 16)], pairA := [1], pairB := [0] }
  else if 1 ≤ op ∧ op ≤ 7 then
    { fields := [(104, 16), (96, 8), (80, 16), (64, 2), (0, 64)], pairA := [1, 2], pairB := [4] }
  else { fields := [], pairA := [], pairB := [] }

/-- The sampling and norm opcodes (R311–R322). -/
def samplingFields (op : Nat) : FieldTable :=
  match op with
  | 1 => { fields := [(104, 16), (102, 2), (94, 8), (78, 16), (62, 16), (60, 2), (59, 1), (44, 15), (30, 14), (15, 15)]
           pairA := [2, 3], pairB := [0] }
  | 2 => { fields := [(104, 16), (102, 2)], pairA := [1], pairB := [0] }
  | 3 => { fields := [(104, 16), (102, 2), (94, 8), (78, 16), (77, 1)], pairA := [2, 3], pairB := [0] }
  | 4 => { fields := [(104, 16), (96, 8), (80, 16), (72, 8), (56, 16), (41, 15), (33, 8), (17, 16)]
           pairA := [1, 2, 3, 4], pairB := [6, 7] }
  | 5 => { fields := [(104, 16), (96, 8), (95, 1), (94, 1), (88, 6), (80, 8), (64, 16), (56, 8), (40, 16), (32, 8),
                      (16, 16), (1, 15)], pairA := [1, 2], pairB := [7, 8, 9, 10] }
  | 6 => { fields := [(104, 16), (72, 32), (48, 24), (24, 24), (11, 13)], pairA := [1], pairB := [2, 3] }
  | 7 => { fields := [(104, 16), (40, 64)], pairA := [1], pairB := [0] }
  | 8 => { fields := [(104, 16), (103, 1), (95, 8), (79, 16)], pairA := [2, 3], pairB := [0] }
  | 9 => { fields := [(104, 16), (72, 32)], pairA := [1], pairB := [0] }
  | _ => { fields := [], pairA := [], pairB := [] }

/-- The opcode of a template (R90). -/
def templateOp (t : Template) : Nat := t.toNat / 2 ^ 120

/-- The fields of a template of an engine other than the vector engine. -/
def fieldTable (e : Engine) (t : Template) : FieldTable :=
  match e with
  | .mat => matrixFields (templateOp t)
  | .cpy => copyFields (templateOp t)
  | .smp => samplingFields (templateOp t)
  | .vec => { fields := [], pairA := [], pairB := [] }

/-- R193: the low bits of a value put into the fields of a pair, from bit 0 up. -/
def putPair (ft : FieldTable) : List Nat → Template → Nat → Template
  | [], t, _ => t
  | i :: rest, t, v =>
    match ft.fields[i]? with
    | some (lo, n) => putPair ft rest (Template.put t lo n v) (v / 2 ^ n)
    | none => t

/-! ### Vector templates (R91, R95) -/

/-- Fields of a vector template and of its slots. -/
def vNslot (t : Template) : Nat := t.toNat / 2 ^ 126 + 1
def vEty (t : Template) : EType := EType.ofCode (t.extractLsb' 123 3)
def vMask (t : Template) : Nat := t.toNat / 2 ^ 120 % 8
def vSlot (t : Template) (i : Nat) : BitVec 30 := t.extractLsb' (90 - 30 * i) 30

/-- R95: the place of a field select in a vector template: lowest bit and width; none where it names no field. -/
def vField (t : Template) (sel : Nat) : Option (Nat × Nat) :=
  let slot := fun (i : Nat) => 90 - 30 * i
  let trig := fun (i : Nat) => (vSlot t i).getLsbD 29
  let there := fun (i : Nat) => i < vNslot t
  if sel = 0 then some (123, 3)
  else if sel = 1 then some (120, 3)
  else if sel < 6 then (if there (sel - 2) then some (slot (sel - 2) + 26, 3) else none)
  else if sel < 10 then (if there (sel - 6) then some (slot (sel - 6) + 18, 8) else none)
  else if sel < 14 then
    let i := sel - 10
    if there i then (if trig i then some (slot i + 1, 8) else some (slot i + 13, 5)) else none
  else if sel < 18 then
    let i := sel - 14
    if there i && trig i then some (slot i + 9, 6) else none
  else none

/-- R87: the template as a patch word amends it; none for a select that names no field, or a value too wide for it. -/
def amendPatch (e : Engine) (t : Template) (sel val : Nat) : Option Template :=
  if sel = 0x3F then some t
  else
    let f := match e with
      | .vec => vField t sel
      | _ => (fieldTable e t).fields[sel]?
    f.bind fun p => if val < 2 ^ p.2 then some (Template.put t p.1 p.2 val) else none

/-- R88: the SIDX bytes (pair A) or the DEST bytes of trigger moves (pair B) of a vector template. -/
def vPair (dest : Bool) (v : Nat) : Nat → Template → Template
  | 0, t => t
  | k + 1, t =>
    let t := vPair dest v k t
    let b := v / 2 ^ (8 * k) % 256
    if k < vNslot t then
      if dest then (if (vSlot t k).getLsbD 29 then Template.put t (91 - 30 * k) 8 b else t)
      else Template.put t (108 - 30 * k) 8 b
    else t

/-- R88, R152: the template as an ECMD amends it; a pair without a value keeps its fields. -/
def amendPairs (e : Engine) (t : Template) (a b : Option Word) : Template :=
  match e with
  | .vec =>
    let t := match a with
      | some v => vPair false v.toNat 4 t
      | none => t
    match b with
    | some v => vPair true v.toNat 4 t
    | none => t
  | _ =>
    let ft := fieldTable e t
    let t := match a with
      | some v => putPair ft ft.pairA t v.toNat
      | none => t
    match b with
    | some v => putPair ft ft.pairB t v.toNat
    | none => t

/-! ### Moves (R91, R92, R94) -/

/-- A source of a move (R92). -/
inductive VSrc where
  | row (view row : Nat)
  | latch (n : Nat)
  | const (n : Nat)
  | reg (r : BitVec 6)
  | lane
  | stream (n : Nat)
  deriving DecidableEq, Repr

/-- A move of a vector template (R91). -/
inductive VMove where
  | operand (src : VSrc) (unit port : Nat)
  | trigger (src : VSrc) (unit op view row : Nat) (nw : Bool)
  deriving DecidableEq, Repr

/-- R92: the source of a kind and index; none outside the range shown. -/
def vSrcOf (kind idx : Nat) : Option VSrc :=
  match kind with
  | 0 => some (.row (idx / 32) (idx % 32))
  | 1 => if idx < 8 then some (.latch idx) else none
  | 2 => if idx < 64 then some (.const idx) else none
  | 3 => if idx < 64 then some (.reg (BitVec.ofNat 6 idx)) else none
  | 4 => if idx = 0 then some .lane else none
  | 5 => if idx < 3 then some (.stream idx) else none
  | _ => none

/-- R94: operations of each unit. -/
def vOps (unit : Nat) : Nat :=
  match unit with
  | 0 => 20
  | 1 => 20
  | 2 => 6
  | 3 => 10
  | 4 => 5
  | 5 => 3
  | 6 => 7
  | _ => 8

/-- R91–R94: the move in a slot; none for the template decode fault. -/
def vMoveOf (b : BitVec 30) : Option VMove :=
  let v := b.toNat
  (vSrcOf (v / 2 ^ 26 % 8) (v / 2 ^ 18 % 256)).bind fun src =>
    let unit := v / 2 ^ 15 % 8
    if b.getLsbD 29 then
      let op := v / 2 ^ 9 % 64
      if op < vOps unit then some (.trigger src unit op (v / 2 ^ 6 % 8) (v / 2 % 32) (b.getLsbD 0)) else none
    else
      let port := v / 2 ^ 13 % 4
      if port = 3 || v % 2 ^ 13 != 0 then none else some (.operand src unit port)

/-- The unit of a trigger move. -/
def VMove.trigUnit : VMove → Option Nat
  | .trigger _ u _ _ _ _ => some u
  | .operand _ _ _ => none

/-- All moves, or none. -/
def allSome {α : Type} : List (Option α) → Option (List α)
  | [] => some []
  | none :: _ => none
  | some a :: rest => (allSome rest).map (a :: ·)

/-- No number stands twice. -/
def distinct : List Nat → Bool
  | [] => true
  | a :: rest => !rest.contains a && distinct rest

/-- A vector template with its moves (R91). -/
structure VWord where
  ety : EType
  mask : Nat
  moves : List VMove
  deriving DecidableEq, Repr

/-- R91–R94: the moves of a vector template, or the template decode fault. -/
def decodeVec (t : Template) : Option VWord :=
  (allSome ((List.range (vNslot t)).map fun i => vMoveOf (vSlot t i))).bind fun ms =>
    if distinct (ms.filterMap VMove.trigUnit) then some { ety := vEty t, mask := vMask t, moves := ms } else none

end Sys2Proof.Machine
end

