-- ==== Sys2Proof/Machine/Tiles.lean ====
section
/-! DEFINITION. The tile table, the scoreboard, and how a command of the matrix, copy or sampling engine enters its queue
(R89, R195–R198, R221–R230, R236, R303). -/

namespace Sys2Proof.Machine
open Sys2Proof

/-! ### Tiles (R221, R222) -/

def Core.tile (k : Core) (n : Nat) : Tile := k.tiles.get {} n
def Tile.lo (t : Tile) : Nat := t.base * 64
def Tile.bytes (t : Tile) : Nat := t.size * 64

/-- Bytes o to o + n − 1 lie in a tile. -/
def Tile.covers (t : Tile) (o n : Nat) : Bool := t.size != 0 && t.lo ≤ o && o + n ≤ t.lo + t.bytes

/-- R222: a tile lies wholly inside the partition of its KIND. -/
def Part.admits (p : Part) (t : Tile) : Bool :=
  let r := if t.acc then p.accum else p.scratch
  r.1 ≤ t.lo && t.lo + t.bytes ≤ r.2

/-- R219: the tile is empty, or will be because a writing holder faulted. -/
def Tile.leftEmpty (t : Tile) : Bool := t.spoiled || t.state == .empty

/-- A core with a tile entry changed. -/
def Core.modTile (k : Core) (n : Nat) (f : Tile → Tile) : Core := { k with tiles := k.tiles.set n (f (k.tile n)) }

/-! ### What a command uses (R195, R197, R226, R227) -/

/-- The tiles that a command reads, writes whole and accumulates into, and its ranges (bytes of the cistern or panels of
the transposing buffer: first, number, written). -/
structure Uses where
  reads : List Nat := []
  writes : List Nat := []
  accs : List Nat := []
  ranges : List (Bool × Nat × Nat × Bool) := []
  deriving DecidableEq, Repr

def readRange (o n : Nat) : Bool × Nat × Nat × Bool := (false, o, n, false)
def writeRange (o n : Nat) : Bool × Nat × Nat × Bool := (false, o, n, true)

/-- Blocks that m elements of a format occupy (R56). -/
def blocksOf (f : BFmt) (m : Nat) : Nat := (m + f.n - 1) / f.n

/-- R227: the span of a stream of m elements at o inside a tile: by the FMT of its first block when that can be read at
issue, else to the end of the tile (log 26, DEDUCED). -/
def Core.streamRange (k : Core) (t : Tile) (o m : Nat) : Bool × Nat × Nat × Bool :=
  let rest := max 64 (t.lo + t.bytes - o)
  match (if sbConflict k.sb false (o / 64) (o / 64) false then none else blockFmt (blkFmt (k.cistern.read o).toNat)) with
  | some f => readRange o (min rest (blocksOf f m * 64))
  | none => readRange o rest

/-- R210, R212: bytes that MXBL and MDRN write. -/
def mxblBytes (np : Nat) (blocks : Bool) : Nat := if blocks then ((np + 1) * 1024 + 30) / 31 * 64 else (np + 1) * 2048
def mdrnBytes (nr fmt : Nat) (raw : Bool) : Nat :=
  let n := (nr + 1) * 32
  if raw then n * (if fmt = 1 then 2 else 4)
  else match blockFmt fmt with
    | some f => blocksOf f n * 64
    | none => 0

/-- Redundant mode as each queued MRED in turn leaves it, from the flag as it stands (R197, R216). -/
def Core.redundantAfter (k : Core) : List Bool :=
  k.mat.queue.foldl (fun fs q => match decodeTemplate .mat q.t with
    | .ok (.mred _ en) => fs ++ [en == 1]
    | _ => fs) [k.mat.redundant]

/-- R197, R206: the second copy of n bytes at o of a tile, for a command that starts in redundant mode. -/
def secondHalf (b : Bool) (t : Tile) (o n : Nat) (writes : Bool) : List (Bool × Nat × Nat × Bool) :=
  if b then [(false, o + t.bytes / 2, n, writes)] else []

/-- The uses of a matrix command. -/
def Core.matrixUses (k : Core) (i : Instr) : Uses :=
  let red := (k.redundantAfter.getLast?).getD false
  match i with
  | .mlds _ st so _ kn nc =>
    let t := k.tile st.toNat
    { reads := [st.toNat], ranges := [k.streamRange t (t.lo + so.toNat * 64) (kn.toNat * (nc.toNat + 1))] }
  | .mstr _ ot orow nr acc src st _ so kstr koff kn =>
    let o := k.tile ot.toNat
    let t := k.tile st.toNat
    let n := nr.toNat + 1
    let at_ := o.lo + orow.toNat * 128
    let outs := writeRange at_ (n * 128) :: secondHalf red o at_ (n * 128) true
    let ins := match src.toNat with
      | 0 => [k.streamRange t (t.lo + so.toNat * 64) (nr.toNat * kstr.toNat + koff.toNat + kn.toNat)]
      | 1 => [(true, so.toNat % 64, (n + 31) / 32, false)]
      | _ => readRange (t.lo + so.toNat * 128) (n * 128) :: secondHalf red t (t.lo + so.toNat * 128) (n * 128) false
    { reads := if src = 1 then [] else [st.toNat]
      writes := if acc = 0 then [ot.toNat] else []
      accs := if acc = 0 then [] else [ot.toNat]
      ranges := ins ++ outs }
  | .mzro _ ot => let o := k.tile ot.toNat; { writes := [ot.toNat], ranges := [writeRange o.lo o.bytes] }
  | .mdrn _ it ir nr ot oo fmt raw _ _ _ _ _ _ _ =>
    let t := k.tile it.toNat
    let o := k.tile ot.toNat
    let n := (nr.toNat + 1) * 128
    let second := secondHalf red t (t.lo + ir.toNat * 128) n false
    { reads := [it.toNat], writes := [ot.toNat]
      ranges := readRange (t.lo + ir.toNat * 128) n :: (second ++
        [writeRange (o.lo + oo.toNat * 64) (mdrnBytes nr.toNat fmt.toNat (raw == 1))]) }
  | .mxbw _ st so src p0 np _ _ =>
    let t := k.tile st.toNat
    let n := np.toNat + 1
    { reads := [st.toNat]
      ranges := [if src = 0 then k.streamRange t (t.lo + so.toNat * 64) (n * 1024)
                 else readRange (t.lo + so.toNat * 128) (n * 32 * 128), (true, p0.toNat, n, true)] }
  | .mxbl _ p0 np _ ot oo f =>
    let o := k.tile ot.toNat
    { writes := [ot.toNat]
      ranges := [(true, p0.toNat, np.toNat + 1, false), writeRange (o.lo + oo.toNat * 64) (mxblBytes np.toNat (f == 1))] }
  | .mstat _ ot oo =>
    let o := k.tile ot.toNat
    { writes := [ot.toNat], ranges := [writeRange (o.lo + oo.toNat * 64) 64] }
  | _ => {}

/-- Bytes rounded up to whole lines. -/
def wholeLines (n : Nat) : Nat := (n + 63) / 64 * 64

/-- R312: region, VLEN and activity of a channel as every earlier-issued command leaves it. -/
def Core.channelAfter (k : Core) (c : Nat) : NormCh :=
  k.smp.queue.foldl (fun (ch : NormCh) q =>
    match decodeTemplate .smp q.t with
    | .ok (.nten _ c' t o l f m nc vo vl) =>
      if c'.toNat = c then
        { bad := false, act := true, fmt := f.toNat, rows := m == 1, vlen := vl.toNat, voff := vo.toNat, ncol := nc.toNat
          lo := (k.tile t.toNat).lo + o.toNat * 64, len := l.toNat * 64 }
      else ch
    | .ok (.ntoff _ c') => if c'.toNat = c then { ch with act := false } else ch
    | _ => ch) (vget k.smp.ch c {})

/-- The uses of a sampling command (R303, R311–R322). -/
def Core.samplingUses (k : Core) (i : Instr) : Uses :=
  let tb := fun (t : BitVec 8) (o : BitVec 16) => (k.tile t.toNat).lo + o.toNat * 64
  match i with
  | .nten _ _ t o l _ _ _ _ _ => { reads := [t.toNat], ranges := [readRange (tb t o) (l.toNat * 64)] }
  | .ntoff _ c =>
    let ch := k.channelAfter c.toNat
    { ranges := if ch.act then [readRange ch.lo ch.len] else [] }
  | .ntrd _ c ot oo _ =>
    let ch := k.channelAfter c.toNat
    { writes := [ot.toNat]
      ranges := (if ch.act then [readRange ch.lo ch.len] else []) ++ [writeRange (tb ot oo) (max 64 (wholeLines (ch.vlen * 4)))] }
  | .alb _ a ao b bo n t o =>
    { reads := [a.toNat, b.toNat], writes := [t.toNat]
      ranges := [readRange (tb a ao) (n.toNat * 4), readRange (tb b bo) (n.toNat * 4), writeRange (tb t o) (n.toNat * 16)] }
  | .smpl _ ot start asrc p0 a ao b bo t o n =>
    let out := k.tile ot.toNat
    { reads := (if asrc = 1 then [a.toNat] else []) ++ [b.toNat, t.toNat]
      writes := if start = 1 then [ot.toNat] else []
      accs := if start = 1 then [] else [ot.toNat]
      ranges := (if asrc = 1 then readRange (tb a ao) (n.toNat * 64) else (true, p0.toNat, (n.toNat + 31) / 32, false)) ::
        readRange (tb b bo) (n.toNat * 64) :: readRange (tb t o) (n.toNat * 16) :: writeRange out.lo 4096 ::
        secondHalf (k.redundantAfter.any id) out out.lo 4096 true }
  | .svarStore _ ot oo => { writes := [ot.toNat], ranges := [writeRange (tb ot oo) 64] }
  | .svarLoad _ ot oo => { reads := [ot.toNat], ranges := [readRange (tb ot oo) 64] }
  | _ => {}

/-! ### Copy descriptors (R234) -/

/-- n bytes of a descriptor from byte i on. -/
def descF (d : BitVec 512) (i n : Nat) : Nat := d.toNat / 2 ^ (8 * i) % 2 ^ (8 * n)
def descSigned (d : BitVec 512) (i : Nat) : Int := (BitVec.ofNat 64 (descF d i 8)).toInt

def descSrc (d : BitVec 512) : Word := BitVec.ofNat 64 (descF d 0 8)
def descDst (d : BitVec 512) : Word := BitVec.ofNat 64 (descF d 8 8)
def descRowb (d : BitVec 512) : Nat := descF d 16 4
def descRows (d : BitVec 512) : Nat := descF d 20 4
def descSstr (d : BitVec 512) : Int := descSigned d 24
def descDstr (d : BitVec 512) : Int := descSigned d 32
def descClass (d : BitVec 512) : Nat := descF d 40 1 % 16
def descAon (d : BitVec 512) : Bool := descF d 40 1 / 16 % 2 == 1
def descTt (d : BitVec 512) : Bool := descF d 40 1 / 32 % 2 == 1
def descTtile (d : BitVec 512) : Nat := descF d 41 1
def descXarg (d : BitVec 512) : Nat := descF d 42 2
def descDph (d : BitVec 512) : Word := BitVec.ofNat 64 (descF d 48 8)
def descAux (d : BitVec 512) : Word := BitVec.ofNat 64 (descF d 56 8)

/-- An address of the own cistern, before any limit. -/
def ownOffset (a : Word) : Option Nat := if a.toNat / 2 ^ 40 = 0xFFFF00 then some (a.toNat % 2 ^ 40) else none

/-- R227: the bounding interval of n rows of b bytes at o, a stride apart, cut to the cistern. -/
def rowsRange (o n b : Nat) (stride : Int) (writes : Bool) : List (Bool × Nat × Nat × Bool) :=
  let last : Int := (o : Int) + ((n - 1 : Nat) : Int) * stride
  let lo := max 0 (min (o : Int) last)
  let hi := min (2 ^ 20) (max ((o : Int) + b) (last + b))
  if lo < hi then [(false, lo.toNat, (hi - lo).toNat, writes)] else []

/-- The uses of a copy with its descriptor (R226, R235, R242, R245, R246). -/
def Core.copyUses (k : Core) (i : Instr) (d : BitVec 512) : Uses :=
  let n := min (descRows d) 65536
  let b := max 64 (descRowb d)
  let sent := (b / 4 + 61) / 62 * 64
  let src := match i, ownOffset (descSrc d) with
    | .cpyg .., some _ => [(false, k.part.scratch.1, 2 ^ 20 - k.part.scratch.1, false)]
    | .cpyc .., some o => rowsRange o n b (descSstr d) false ++ rowsRange o n sent (descSstr d) true
    | _, some o => rowsRange o n b (descSstr d) false
    | _, none => []
  let dst := match ownOffset (descDst d) with
    | some o => rowsRange o n (match i with | .cpyc .. => sent | _ => b) (descDstr d) true
    | none => []
  let aux := match i, ownOffset (descAux d) with
    | .cpyg .., some o => rowsRange o 1 (4 * n) 0 false
    | .cpyc .., some o => rowsRange o n b b true
    | .cpyt .., some o => rowsRange o 1 64 0 false
    | _, _ => []
  { writes := if descTt d then [descTtile d] else [], ranges := src ++ dst ++ aux }

/-- The uses of a command of any engine. -/
def Core.uses (k : Core) (e : Engine) (i : Instr) (d : BitVec 512) : Uses :=
  match e with
  | .mat => k.matrixUses i
  | .smp => k.samplingUses i
  | .cpy => match i with
    | .cpyx _ _ => {}
    | _ => k.copyUses i d
  | .vec => {}

/-! ### Issue of a command (R89, R195, R223, R226) -/

/-- A range as a scoreboard entry of a command; a range of no byte takes none. -/
def sbEntry (cmd : Nat) (r : Bool × Nat × Nat × Bool) : Option SbEntry :=
  if r.2.2.1 = 0 then none
  else if r.1 then some { cmd := cmd, panels := true, lo := r.2.1, hi := r.2.1 + r.2.2.1 - 1, writes := r.2.2.2 }
  else some { cmd := cmd, panels := false, lo := r.2.1 / 64, hi := (r.2.1 + r.2.2.1 - 1) / 64, writes := r.2.2.2 }

/-- R195, R236, R303: the tile conditions of a command. -/
def Core.tilesAllow (k : Core) (u : Uses) : Bool :=
  let ok := fun (w : Bool) (n : Nat) =>
    let t := k.tile n
    !t.holders.isEmpty || t.state == .ready || (w && t.state == .empty)
  u.reads.all (ok false) && u.accs.all (ok false) && u.writes.all (ok true)

/-- R223: the transition of a tile when a command that writes it issues. -/
def Tile.heldWrite (t : Tile) (cmd : Nat) : Tile :=
  { t with state := .filling, holders := t.holders ++ [{ cmd := cmd, writes := true }]
           prior := if t.holders.isEmpty then t.state else t.prior }

/-- R223: the transition of a tile when a command that reads it issues. -/
def Tile.heldRead (t : Tile) (cmd : Nat) : Tile :=
  { t with state := if t.holders.isEmpty && t.acc && t.state == .ready then .draining else t.state
           holders := t.holders ++ [{ cmd := cmd, writes := false }]
           prior := if t.holders.isEmpty then t.state else t.prior }

/-- R195, R223: the holds of a command taken; a tile both read and written is held as a written one. -/
def Core.hold (k : Core) (cmd : Nat) (u : Uses) : Core :=
  let ws := (u.writes ++ u.accs).foldl insertNat []
  let rs := (u.reads.foldl insertNat []).filter fun t => !ws.contains t
  let k := ws.foldl (fun k t => k.modTile t fun x => x.heldWrite cmd) k
  rs.foldl (fun k t => k.modTile t fun x => x.heldRead cmd) k

/-- R226: entries of the scoreboard that are taken in a clk. -/
def Core.sbTaken (k : Core) (clk : Nat) : Nat := k.sb.length + if k.sbFreed.1 = clk then k.sbFreed.2 else 0

/-- Commands in the queue of an engine. -/
def Core.queued (k : Core) (e : Engine) : List Cmd :=
  match e with
  | .vec => []
  | .mat => k.mat.queue
  | .cpy => k.cpy.queue
  | .smp => k.smp.queue

/-- A core with the queue of an engine replaced. -/
def Core.setQueue (k : Core) (e : Engine) (q : List Cmd) : Core :=
  match e with
  | .vec => k
  | .mat => { k with mat := { k.mat with queue := q } }
  | .cpy => { k with cpy := { k.cpy with queue := q } }
  | .smp => { k with smp := { k.smp with queue := q } }

/-- R89, R195, R226, R450: a command can enter its queue in this clk. -/
def Core.admits (k : Core) (e : Engine) (u : Uses) (clk : Nat) : Bool :=
  (k.queued e).length < 8 && k.tilesAllow u && k.sbTaken clk + (u.ranges.filterMap (sbEntry 0)).length ≤ 64 && !k.closed

/-- A command with number `id` enters its queue, with its holds and entries. -/
def Core.enter (k : Core) (e : Engine) (u : Uses) (c : Cmd) : Core :=
  let k := k.hold c.id u
  { k.setQueue e (k.queued e ++ [c]) with sb := k.sb ++ u.ranges.filterMap (sbEntry c.id) }

/-- A command issued on a core, with the next number; none while it must wait. -/
def State.issueCmd (s : State) (d c : Nat) (e : Engine) (i : Instr) (x : Cmd) : Option State :=
  let k := s.core d c
  let u := k.uses e i x.desc
  if k.admits e u s.clk then some ((s.modCore d c fun k => k.enter e u { x with id := s.ids, at_ := s.clk }).newId) else none

/-! ### Holding back, and the end of a command (R223, R225, R228–R230) -/

/-- R228, R230: the ranges of a command are held back by earlier entries, or by stores on their way. -/
def Core.heldBack (k : Core) (id clk : Nat) : Bool :=
  let mine := k.sb.filter fun e => e.cmd == id
  let earlier := k.sb.filter fun e => e.cmd < id
  let cells := k.slots.toList.flatMap fun x => (x.lands ++ x.lrec).flatMap fun l =>
    if l.kind == .store then l.cells.map fun b => b.1 / 64 else []
  let lines := cells ++ if k.stored.1 = clk then k.stored.2 else []
  mine.any fun m => sbConflict earlier m.panels m.lo m.hi m.writes ||
    (!m.panels && lines.any fun l => m.lo ≤ l && l ≤ m.hi)

/-- R229: entries of a command released, the read ones or all. -/
def Core.freeEntries (k : Core) (id clk : Nat) (writes : Bool) : Core :=
  let out := k.sb.filter fun e => e.cmd == id && (writes || !e.writes)
  { k with sb := k.sb.filter fun e => !(e.cmd == id && (writes || !e.writes))
           sbFreed := (clk, out.length + if k.sbFreed.1 = clk then k.sbFreed.2 else 0) }

/-- R223: a holder of a tile ends; `spoil` when it faulted, was cancelled or was aborted by a save. -/
def Tile.unhold (t : Tile) (cmd : Nat) (spoil : Bool) : Tile :=
  let mine := t.holders.filter fun h => h.cmd == cmd
  if mine.isEmpty then t
  else
    let rest := t.holders.filter fun h => h.cmd != cmd
    let sp := t.spoiled || (spoil && mine.any (·.writes))
    if rest.isEmpty then
      { t with holders := [], spoiled := false
               state := if sp then .empty else if t.state == .filling || t.state == .draining then .ready else t.state }
    else { t with holders := rest, spoiled := sp, prior := if mine.any (·.writes) then .ready else t.prior }

/-- R220: a holder that never started leaves a tile with the state that it had before. -/
def Tile.withdraw (t : Tile) (cmd : Nat) : Tile :=
  let rest := t.holders.filter fun h => h.cmd != cmd
  if t.holders.isEmpty || !rest.isEmpty then { t with holders := rest }
  else { t with holders := [], spoiled := false, state := if t.spoiled then .empty else t.prior }

/-- R198, R223, R229: a command ends: its entries and its holds. -/
def Core.endCmd (k : Core) (id clk : Nat) (spoil : Bool) : Core :=
  let k := k.freeEntries id clk true
  { k with tiles := { entries := k.tiles.entries.map fun e => (e.1, e.2.unhold id spoil) } }

/-- R220, R250: a queued command is saved: its entries and its holds go as if it had not been issued. -/
def Core.withdrawCmd (k : Core) (id clk : Nat) : Core :=
  let k := k.freeEntries id clk true
  { k with tiles := { entries := k.tiles.entries.map fun e => (e.1, e.2.withdraw id) } }

/-- R440: a completion handle lies in the context's grant. -/
def State.handleOk (s : State) (d c h : Nat) : Bool := h == 0 || s.granted d c (h * 64)

/-- R417, R422: a fault of a command of an expansion ends the expansion with its code. -/
def Macro.commandFault (m : Macro) (id code : Nat) : Macro :=
  { m with run := m.run.map fun x =>
      if x.code = 0 && x.cmds.any fun c => c.2 == id then { x with code := code, ended := true } else x }

/-- R219, R249, R304: the report of a command fault: its code, the template and opcode, and the tiles named; an expansion
that issued the command ends. -/
def State.commandRecord (s : State) (d c code : Nat) (x : Cmd) (tiles : List Nat) (reached : Bool)
    (range : Option (Nat × Nat)) (va : Option Word) : State :=
  let s := s.modCore d c fun k => { k with macro_ := k.macro_.commandFault x.id code }
  let s := if code = 0x42 ∨ code = 0x53 ∨ code = 0x62 then s.strokeFault d x.token else s
  s.record d { unit := unitOfCore c, kind := 0x20, action := if reached then 4 else 0
               asid := (s.core d c).ctx.asid.toNat, va := va, range := range, tiles := tiles.take 4, tcore := c
               d0 := BitVec.ofNat 64 code, d1 := BitVec.ofNat 64 (x.idx + templateOp x.t * 256) }

/-- The completion handle of a template (R192). -/
def cphOf (t : Template) : Nat := t.toNat / 2 ^ 104 % 2 ^ 16

/-- R219: a command ends in a fault: its ranges and holds, CPH in error, and the report, which names the range. -/
def State.faultCmd (s : State) (d c code : Nat) (x : Cmd) (tiles : List Nat) (range : Option (Nat × Nat)) : State :=
  let h := cphOf x.t
  let reached := h != 0 && s.handleOk d c h
  let s := s.modCore d c fun k => k.endCmd x.id s.clk true
  let s := if reached then s.sendError d h code else s
  s.commandRecord d c code x tiles reached range none

end Sys2Proof.Machine
end

