-- ==== Sys2Proof/Machine/Recorder.lean ====
section
/-! DEFINITION. What the recorder of a die notes while a stroke of first sight runs (R393–R396). -/

namespace Sys2Proof.Machine
open Sys2Proof

/-- n bytes of a task record from byte b on (R350). -/
def TaskRec.field (t : TaskRec) (b n : Nat) : Nat := t.bits.toNat / 2 ^ (8 * b) % 2 ^ (8 * n)

/-- CTK, QUEUE, JOB and AFF of a task record (R350). -/
def TaskRec.ctk (t : TaskRec) : Nat := t.field 40 4
def TaskRec.queue (t : TaskRec) : Nat := t.field 48 2 % 1024
def TaskRec.job (t : TaskRec) : Nat := t.field 52 2 % 256
def TaskRec.aff (t : TaskRec) : Nat := t.field 46 2

/-- The task record that a slot runs (R358). -/
def State.taskOf (s : State) (d c i : Nat) : Option TaskRec := (s.slot d c i).task.bind fun h => (s.die d).recs.find h

/-- The graph and node of the task that a slot runs, with its stroke. -/
def State.nodeOf (s : State) (d c i : Nat) : Option (Nat × Nat × Stroke) :=
  (s.taskOf d c i).bind fun t => t.node.bind fun n => ((s.die d).graphs.find n.1).bind fun g => g.run.map fun r => (n.1, n.2, r)

/-- The running stroke of a graph of a die changed. -/
def State.modStroke (s : State) (d gid : Nat) (f : Stroke → Stroke) : State :=
  s.modDie d fun x =>
    match x.graphs.find gid with
    | some g => { x with graphs := x.graphs.set gid { g with run := g.run.map f } }
    | none => x

/-- The node and graph whose work is being recorded by a slot. -/
def State.recording (s : State) (d c i : Nat) : Option (Nat × Nat × Stroke) :=
  (s.nodeOf d c i).bind fun n =>
    if n.2.2.mode == .record || (n.2.2.mode == .handedOff && (s.die d).gmRec) then some n else none

/-- An entry noted for the core of a slot, in issue order (log 49, DEDUCED). -/
def State.note (s : State) (d c i : Nat) (mk : Nat → TraceEntry) : State :=
  match s.recording d c i with
  | some (gid, node, _) => s.modStroke d gid fun r => { r with order := r.order ++ [(c, mk node)] }
  | none => s

/-- An entry of a work node: a call records none of them (R395) (log 49, DEDUCED). -/
def State.noteWork (s : State) (d c i : Nat) (mk : Nat → TraceEntry) : State :=
  match s.recording d c i with
  | some (_, node, r) => if r.calls.contains node then s else s.note d c i mk
  | none => s

/-- The node that a slot runs is recorded as a call (R395, R404; log 24, DEDUCED) (log 49, DEDUCED). -/
def State.becomeCall (s : State) (d c i : Nat) : State :=
  match s.recording d c i with
  | some (gid, node, _) => s.modStroke d gid fun r => { r with calls := insertNat r.calls node }
  | none => s

/-- The offset of a phaser handle from PHBASE of the graph that a slot's task belongs to; none for another phaser. -/
def State.graphPhaser (s : State) (d c i h : Nat) : Option Nat :=
  (s.nodeOf d c i).bind fun n => ((s.die d).graphs.find n.1).bind fun g =>
    if g.phbase ≤ h && h < g.phbase + g.phasers.length then some (h - g.phbase) else none

/-- PHWAIT or PHARV of a work node on a graph phaser (R395). -/
def State.notePhaser (s : State) (d c i h : Nat) (wait : Bool) (v : Word) : State :=
  match s.graphPhaser d c i h with
  | some p => s.noteWork d c i fun node => { kind := if wait then .phwait else .pharv, b := v, node := node, ph := p }
  | none => s

end Sys2Proof.Machine
end

