-- ==== Sys2Proof/Machine/SyncInstr.lean ====
section
/-! DEFINITION. The class 0x4 words (R251–R282): where each operates, what it waits for, and its request. -/

namespace Sys2Proof.Machine
open Sys2Proof

/-! ### Addresses (R251, R254, R261, R266, R274) -/

/-- Which sync variables an instruction may name. -/
inductive SyncArea where
  /-- global memory, windows of KIND 2, and sync variables above the handle area -/
  | word
  /-- sync variables above the handle area, own or behind a window -/
  | variable
  /-- a phaser line of the handle area -/
  | handle
  deriving DecidableEq, Repr

/-- An offset in the sync-variable region suits an area. -/
def SyncArea.ok (t : SyncArea) (o : Nat) : Bool :=
  match t with
  | .handle => o % 64 == 0 && 64 ≤ o && o < 0x400000
  | _ => 0x400000 ≤ o

/-- The place of an operand of n bytes, with its window, or the fault (R261) (log 80, DEDUCED). -/
def State.syncPlace (s : State) (va : Word) (n align : Nat) (t : SyncArea) : Ans (Loc × Option Nat) :=
  if va.toNat % align != 0 then .trap causeAlign va (BitVec.ofNat 64 align)
  else
    match region va with
    | .global => if t == .word then (s.global s.access va.toNat rightsRW).bind fun l => .ok (l, none) else accessFault va.toNat rightsRW
    | .sync o =>
      if 2 ^ 30 < o + n || !s.granted s.cur.die s.cur.core o || !t.ok o then accessFault va.toNat rightsRW
      else .ok (.sync s.cur.die o, none)
    | .window w o =>
      (s.winNeed w o n true va (if t == .handle then rightsR else rightsRW)).bind fun _ =>
        match s.winLoc (s.here.win w) o with
        | .sync d x => if t.ok x then .ok (.sync d x, some w) else accessFault va.toNat rightsRW
        | _ => accessFault va.toNat rightsRW
    | _ => accessFault va.toNat rightsRW

/-! ### Issue (R257, R259) -/

/-- Sync operations in flight on a core (R259). -/
def Core.syncInFlight (k : Core) : Nat := (k.slots.toList.map fun x => (x.pend.filter (·.sync)).length).sum

/-- R257: an earlier sync-path operation of the slot to a home die that is still on its way: a class 0x4 operation or an arrival
of a VSTA. -/
def State.syncAhead (s : State) (home : Nat) : Bool :=
  let c := s.here
  let me := s.cur.slot
  (c.awaits.any fun a => a.of me && a.pkt.target.die s.cur.die == home && (match a.pkt.kind with
    | .sync _ => true
    | .arrival _ _ => true
    | .snap => true
    | _ => false)) ||
  (c.arrivals.any fun a => a.slot == me && (match region a.addr with
    | .window w o => (s.winLoc (c.win w) o).die s.cur.die == home
    | _ => s.cur.die == home)) ||
  s.me.lands.any fun l => match l.arrival with
    | some (p, _) => (match region p with
      | .window w o => (s.winLoc (c.win w) o).die s.cur.die == home
      | _ => s.cur.die == home)
    | none => false

/-- R257, R259, R493: what a sync operation waits for before it leaves: its home, room among the 32, the slot's earlier sync-path
operations to the same home, one through a window also any other of them, and, with a scope group, every earlier access of
the slot. -/
def State.syncReady (s : State) (home : Nat) (win : Option Nat) (g : Option Nat) (k : State → Out) : Out :=
  if (win.isNone && !(s.die home).rdy.getLsbD 19) || 32 ≤ s.here.syncInFlight || s.syncAhead home ||
      (win.isSome && s.here.awaits.any fun a => a.of s.cur.slot && (match a.pkt.kind with | .sync _ => true | _ => false))
  then s.hold
  else
    match g with
    | some g => s.releaseAll g k
    | none => k s

/-- R257: the scope fault. -/
def State.scopeNeed (s : State) (g : Option Nat) : Ans Unit :=
  match g with
  | some g => if s.scopeBad g then .trap causeScope (BitVec.ofNat 64 g) 0 else .ok ()
  | none => .ok ()

/-- A request of the slot that the step concerns, with the number that its pending result will have. -/
def State.request (s : State) (i : Instr) (l : Loc) (a b d : Word) : SyncReq :=
  { id := s.ids, op := i, die := s.cur.die, core := s.cur.core, slot := s.cur.slot, asid := s.here.ctx.asid.toNat
    pc := s.me.pc, loc := l, a := a, b := b, d := d }

/-- The request leaves: performed at a home of this system, or sent through its window. The slot goes on, or, when the
instruction waits and its condition does not hold, is BLOCKED at its word until the answer comes. -/
def State.sendSync (s : State) (r : SyncReq) (va : Word) (dest : Dest) (waits acquire : Bool) : Out :=
  let s := s.addPend { Pend.new dest with sync := true, acquire := acquire }
  let s :=
    match r.win with
    | none => s.homeSync r
    | some w =>
      let p := s.packetOf s.cur.die s.cur.core w (va.toNat % 2 ^ 32) (.sync r)
      s.inject { p with id := r.id, slot := r.slot, owner := r.id, pc := r.pc, addr := va }
  if waits && !((s.findPend r.die r.core r.slot r.id).map (·.answered)).getD true then .next (s.block (.answer r.id))
  else .next s.next4

/-- An operation on a place, with its checks in order: the address, the scope group, then the waits. -/
def State.syncOp (s : State) (i : Instr) (va : Word) (n align : Nat) (t : SyncArea) (g : Option Nat) (b d : Word)
    (dest : Dest) (waits : Bool) : Out :=
  ((s.syncPlace va n align t).bind fun p => (s.scopeNeed g).bind fun _ => .ok p).run s fun p =>
    s.syncReady (s.homeOf p.1 s.cur.die) p.2 g fun s =>
      s.sendSync { s.request i p.1 va b d with win := p.2 } va dest waits g.isSome

/-- A sync operation that names no place: its answer is known at issue (R278, R281). -/
def State.syncLocal (s : State) (dest : Dest) (vals : List Word) : Out :=
  s.syncReady s.cur.die none none fun s =>
    let id := s.ids
    .next ((s.addPend { Pend.new dest with sync := true, answered := true, vals := vals }).landLater
      s.cur.die s.cur.core s.cur.slot id .syncResultLands).next4

/-! ### Atomics (R260, R262) -/

/-- AMADD (R260). -/
def execAmadd (d a b : BitVec 6) (g : BitVec 5) (s : State) : Out :=
  s.syncOp (.amadd d a b g) (s.rx a) 8 8 .word (some g.toNat) (s.rx b) (s.rx d) (.x d.toNat) false

/-- AMFADD (R260). -/
def execAmfadd (d a b : BitVec 6) (g : BitVec 5) (s : State) : Out :=
  s.syncOp (.amfadd d a b g) (s.rx a) 4 4 .word (some g.toNat) (s.rx b) (s.rx d) (.x d.toNat) false

/-- AMMIN (R260). -/
def execAmmin (d a b : BitVec 6) (g : BitVec 5) (s : State) : Out :=
  s.syncOp (.ammin d a b g) (s.rx a) 8 8 .word (some g.toNat) (s.rx b) (s.rx d) (.x d.toNat) false

/-- AMMAX (R260). -/
def execAmmax (d a b : BitVec 6) (g : BitVec 5) (s : State) : Out :=
  s.syncOp (.ammax d a b g) (s.rx a) 8 8 .word (some g.toNat) (s.rx b) (s.rx d) (.x d.toNat) false

/-- AMMINN (R260). -/
def execAmminn (d a b : BitVec 6) (g : BitVec 5) (s : State) : Out :=
  s.syncOp (.amminn d a b g) (s.rx a) 8 8 .word (some g.toNat) (s.rx b) (s.rx d) (.x d.toNat) false

/-- AMMAXN (R260). -/
def execAmmaxn (d a b : BitVec 6) (g : BitVec 5) (s : State) : Out :=
  s.syncOp (.ammaxn d a b g) (s.rx a) 8 8 .word (some g.toNat) (s.rx b) (s.rx d) (.x d.toNat) false

/-- AMAND (R260). -/
def execAmand (d a b : BitVec 6) (g : BitVec 5) (s : State) : Out :=
  s.syncOp (.amand d a b g) (s.rx a) 8 8 .word (some g.toNat) (s.rx b) (s.rx d) (.x d.toNat) false

/-- AMOR (R260). -/
def execAmor (d a b : BitVec 6) (g : BitVec 5) (s : State) : Out :=
  s.syncOp (.amor d a b g) (s.rx a) 8 8 .word (some g.toNat) (s.rx b) (s.rx d) (.x d.toNat) false

/-- AMXOR (R260). -/
def execAmxor (d a b : BitVec 6) (g : BitVec 5) (s : State) : Out :=
  s.syncOp (.amxor d a b g) (s.rx a) 8 8 .word (some g.toNat) (s.rx b) (s.rx d) (.x d.toNat) false

/-- AMXCH (R260). -/
def execAmxch (d a b : BitVec 6) (g : BitVec 5) (s : State) : Out :=
  s.syncOp (.amxch d a b g) (s.rx a) 8 8 .word (some g.toNat) (s.rx b) (s.rx d) (.x d.toNat) false

/-- AMCAS (R260). -/
def execAmcas (d a b : BitVec 6) (g : BitVec 5) (s : State) : Out :=
  s.syncOp (.amcas d a b g) (s.rx a) 8 8 .word (some g.toNat) (s.rx b) (s.rx d) (.x d.toNat) false

/-- AMINCB (R260). -/
def execAmincb (d a b : BitVec 6) (g : BitVec 5) (s : State) : Out :=
  s.syncOp (.amincb d a b g) (s.rx a) 8 8 .word (some g.toNat) (s.rx b) (s.rx d) (.x d.toNat) false

/-- R262: the source row of an AMRED in the own cistern. -/
def State.redSource (s : State) (b : Word) : Ans Row :=
  if b.toNat % 128 != 0 then .trap causeAlign b 128
  else
    match region b with
    | .own o => (s.ownLoad b o 128).bind fun v => .ok (BitVec.ofNat 1024 v)
    | _ => accessFault b.toNat rightsR

/-- AMRED (R262). -/
def execAmred (d a b : BitVec 6) (g : BitVec 5) (s : State) : Out :=
  let va := s.rx a
  ((s.syncPlace va 128 128 .word).bind fun p => (s.redSource (s.rx b)).bind fun r =>
    (s.scopeNeed (some g.toNat)).bind fun _ => .ok (p, r)).run s fun q =>
    s.syncReady (s.homeOf q.1.1 s.cur.die) q.1.2 (some g.toNat) fun s =>
      s.sendSync { s.request (.amred d a b g) q.1.1 va (s.rx b) (s.rx d) with win := q.1.2, data := q.2 } va (.x d.toNat) false true

/-! ### Acquire, release and address waits (R264, R265) -/

/-- LDA (R264): at the home sync engine for a sync variable, else a load. -/
def execLda (d a : BitVec 6) (g : BitVec 5) (s : State) : Out :=
  let va := s.rx a
  ((s.operand va 8 8 rightsR).bind fun p => (s.scopeNeed (some g.toNat)).bind fun _ => .ok p).run s fun p =>
    match p with
    | .loc (.sync h o) =>
      s.syncReady h none none fun s =>
        s.sendSync (s.request (.lda d a g) (.sync h o) va 0 0) va (.x d.toNat) false true
    | _ => s.scalarLoad va 8 false 0 d true

/-- STRL (R264). -/
def execStrl (a b : BitVec 6) (g : BitVec 5) (s : State) : Out :=
  let va := s.rx a
  ((s.operand va 8 8 rightsW).bind fun p => (s.scopeNeed (some g.toNat)).bind fun _ => .ok p).run s fun p =>
    s.release g.toNat fun s => s.storeAt p va 8 (s.rx b).toNat 0

/-- R265: the place of a WAITA. -/
def State.waitPlace (s : State) (va : Word) : Ans Loc :=
  if va.toNat % 8 != 0 then .trap causeAlign va 8
  else
    match region va with
    | .global => s.global s.access va.toNat rightsR
    | .sync o =>
      if 2 ^ 30 < o + 8 || !s.granted s.cur.die s.cur.core o then accessFault va.toNat rightsR else .ok (.sync s.cur.die o)
    | _ => accessFault va.toNat rightsR

/-- R460: the lines that the watch table of a package can hold. -/
def watchEntries : Nat := 1024

/-- R460: a WAITA on host memory takes a watch entry, or, in PCIe mode or with the table full, polls every 256 clk. -/
def State.watchHost (s : State) (l : Loc) (who : Subject) : State :=
  match l with
  | .host a =>
    if s.hostLink == .cxl && (s.watch.contains (a / 64) || s.watch.length < watchEntries) then { s with watch := insertNat s.watch (a / 64) }
    else s.later 256 { who := who, op := .waitaPoll }
  | _ => s

/-- WAITA (R265). -/
def execWaita (d a b : BitVec 6) (g : BitVec 5) (s : State) : Out :=
  let va := s.rx a
  ((s.waitPlace va).bind fun l => (s.scopeNeed (some g.toNat)).bind fun _ => .ok l).run s fun l =>
    s.syncReady (s.homeOf l s.cur.die) none (some g.toNat) fun s =>
      let r := s.request (.waita d a b g) l va (s.rx b) (s.rx d)
      let who := { s.cur with id := r.id }
      match s.sendSync r va (.x d.toNat) true true with
      | .next t =>
        if t.me.wait = .answer r.id then
          let t := t.watchHost l who
          .next (if r.d = 0 then t else t.later r.d.toNat { who := who, op := .waitaTimeout })
        else .next t
      | o => o

/-! ### Futures (R266–R268) -/

/-- FTSET (R267). -/
def execFtset (d a b : BitVec 6) (g : BitVec 5) (s : State) : Out :=
  s.syncOp (.ftset d a b g) (s.rx a) 16 16 .variable (some g.toNat) (s.rx b) 0 (.x d.toNat) false

/-- FTSETW (R267). -/
def execFtsetw (d a b : BitVec 6) (g : BitVec 5) (s : State) : Out :=
  s.syncOp (.ftsetw d a b g) (s.rx a) 16 16 .variable (some g.toNat) (s.rx b) 0 (.x d.toNat) true

/-- FTGET (R268). -/
def execFtget (d a : BitVec 6) (g : BitVec 5) (s : State) : Out :=
  s.syncOp (.ftget d a g) (s.rx a) 16 16 .variable (some g.toNat) 0 0 (.x d.toNat) true

/-- FTTRY (R268). -/
def execFttry (d a b : BitVec 6) (g : BitVec 5) (s : State) : Out :=
  s.syncOp (.fttry d a b g) (s.rx a) 16 16 .variable (some g.toNat) 0 0 (.x2 d.toNat b.toNat) false

/-! ### Phasers (R274–R277, R279) -/

/-- PHNEW (R274). -/
def execPhnew (d a b : BitVec 6) (s : State) : Out :=
  s.syncOp (.phnew d a b) (s.rx a) 64 1 .handle none (s.rx b) 0 (.x d.toNat) false

/-- PHREG (R275). -/
def execPhreg (d a b : BitVec 6) (s : State) : Out :=
  s.syncOp (.phreg d a b) (s.rx a) 64 1 .handle none (s.rx b) 0 (.x d.toNat) false

/-- PHDROP (R275). -/
def execPhdrop (d a b : BitVec 6) (s : State) : Out :=
  s.syncOp (.phdrop d a b) (s.rx a) 64 1 .handle none (s.rx b) 0 (.x d.toNat) false

/-- PHBYT (R276). -/
def execPhbyt (d a b : BitVec 6) (s : State) : Out :=
  s.syncOp (.phbyt d a b) (s.rx a) 64 1 .handle none (s.rx b) 0 (.x d.toNat) false

/-- R279: the phaser line and the target phase of a relative operand (log 79, DEDUCED). -/
def Binding.target (x : Binding) (a : Nat) : Nat × Nat :=
  let idx := x.iter + a
  (x.base.toNat % 2 ^ 40 + idx % x.d * 64, (x.r0 + idx / x.d) % 2 ^ 32)

/-- What the recorder notes of a phaser operation that issues (R395). -/
def State.notePhaserOp (s : State) (r : SyncReq) : State :=
  match r.loc with
  | .sync _ o =>
    let note := fun (s : State) (wait : Bool) (v : Word) => s.notePhaser r.die r.core r.slot (o / 64) wait v
    let bytes := r.b &&& 0xFFFFFFFFFF
    match r.op with
    | .pharv .. => note s false bytes
    | .phwait .. => note s true (BitVec.ofNat 64 r.n)
    | .pharw .. =>
      if r.arrived then s
      else note (note s false bytes) true (BitVec.ofNat 64 (if r.rel then r.n else (s.phaser r.loc).ph))
    | _ => s
  | _ => s

/-- R259: the mark of a PHARW that has completed at once goes. -/
def State.endMark (s : State) (pc : Word) : State :=
  s.upMe fun x => if x.arrivedAt = pc.toNat then { x with arrived := none } else x

/-- PHARV, PHARW and PHWAIT on a phaser line or a relative barrier (R277, R279); a marked PHARW only waits (R259). -/
def State.phaserOp (s : State) (i : Instr) (d a b : BitVec 6) (g : Nat) (waits : Bool) : Out :=
  let va := s.rx a
  let x := s.me
  let rel := va.toNat ≤ 7
  let tgt := x.bar.target va.toNat
  let place : Ans (Option (Loc × Option Nat)) :=
    if rel then (if x.bar.d = 0 then .ok none else .ok (some (.sync s.cur.die tgt.1, none)))
    else (s.syncPlace va 64 1 .handle).bind fun p => .ok (some p)
  (place.bind fun p => (s.scopeNeed (some g)).bind fun _ => .ok p).run s fun p =>
    match p with
    | none => s.syncReady s.cur.die none (some g) fun s => s.syncLocal (.x d.toNat) [fail 4]
    | some (l, win) =>
      s.syncReady (s.homeOf l s.cur.die) win (some g) fun s =>
        let r := { s.request i l va (s.rx b) 0 with win := win, rel := rel, n := if rel then tgt.2 else (s.rx b).toNat % 2 ^ 32 }
        let r := match i, x.arrived with
          | .pharw .., some ph => if x.arrivedAt = x.pc.toNat then { r with arrived := true, n := ph } else r
          | _, _ => r
        match (s.notePhaserOp r).sendSync r va (.x d.toNat) waits true with
        | .next t => .next (if t.me.wait = .answer r.id then t else t.endMark s.me.pc)
        | o => o

/-- PHARV (R277). -/
def execPharv (d a b : BitVec 6) (g : BitVec 5) (s : State) : Out := s.phaserOp (.pharv d a b g) d a b g.toNat false

/-- PHWAIT (R277). -/
def execPhwait (d a b : BitVec 6) (g : BitVec 5) (s : State) : Out := s.phaserOp (.phwait d a b g) d a b g.toNat true

/-- PHARW (R277). -/
def execPharw (d a b : BitVec 6) (g : BitVec 5) (s : State) : Out := s.phaserOp (.pharw d a b g) d a b g.toNat true

/-! ### Rotating barriers (R278) -/

/-- BRBASE (R278): the phasers of a binding must be valid and in one phase, and their lines correctable (R255, R263). -/
def execBrbase (d a b : BitVec 6) (s : State) : Out :=
  let va := s.rx a
  let n := (s.rx b).toNat
  let bind := fun (s : State) (x : Binding) (v : Word) => (s.upMe fun y => { y with bar := x }).syncLocal (.x d.toNat) [v]
  if n = 0 then s.syncReady s.cur.die none none fun s => bind s {} 0
  else
    match region va with
    | .sync o =>
      if 8 < n then s.syncLocal (.x d.toNat) [fail 4]
      else if !s.granted s.cur.die s.cur.core o || !s.granted s.cur.die s.cur.core (o + n * 64 - 1) then
        s.raise causeAccess va 0
      else
        let ps := (List.range n).map fun i => s.phaser (.sync s.cur.die (o + i * 64))
        let r0 := (s.phaser (.sync s.cur.die o)).ph
        let bad := (List.range n).find? fun i => s.bad (.sync s.cur.die (o + i * 64)) 64
        let lines := SyncArea.handle.ok o && SyncArea.handle.ok (o + (n - 1) * 64)
        if let (true, some i) := (lines, bad) then
          s.syncReady s.cur.die none none fun s =>
            (s.syncBad (s.request (.brbase d a b) (.sync s.cur.die (o + i * 64)) va (s.rx b) 0) 64).syncLocal (.x d.toNat) [fail 7]
        else if lines && ps.all fun p => p.valid && p.ph == r0 then
          s.syncReady s.cur.die none none fun s => bind s { base := va, d := n, iter := 0, r0 := r0 } (BitVec.ofNat 64 r0)
        else s.syncLocal (.x d.toNat) [fail 4]
    | _ => s.syncLocal (.x d.toNat) [fail 4]

/-- BRADV (R278): no sync operation, but a result on the sync path, in issue order. -/
def execBradv (d : BitVec 6) (s : State) : Out :=
  let x := s.me.bar
  let id := s.ids
  let go := fun (s : State) (v : Word) =>
    .next ((s.addPend { Pend.new (.x d.toNat) with sync := true, answered := true, vals := [v] }).landLater
      s.cur.die s.cur.core s.cur.slot id .syncResultLands).next4
  if x.d = 0 then go s (fail 4)
  else
    let i := (x.iter + 1) % 2 ^ 32
    go (s.upMe fun y => { y with bar := { y.bar with iter := i } }) (BitVec.ofNat 64 i)

/-! ### Compatibility barriers and routing counters (R280–R282) -/

/-- BRCMP (R280) (log 38, DEDUCED). -/
def execBrcmp (d a b : BitVec 6) (g : BitVec 5) (s : State) : Out :=
  let v := (s.rx b).toNat
  if v % 2 ^ 32 / 8 != 0 || 2 ^ 48 ≤ v then
    ((s.syncPlace (s.rx a) 64 64 .variable).bind fun _ => s.scopeNeed (some g.toNat)).run s fun _ =>
      s.syncLocal (.x d.toNat) [fail 4]
  else
    s.syncOp (.brcmp d a b g) (s.rx a) 64 64 .variable (some g.toNat) (s.rx b) 0 (.x d.toNat) (v / 4 % 2 == 1)

/-- RCINC (R281). -/
def execRcinc (d a b : BitVec 6) (s : State) : Out :=
  s.syncReady s.cur.die none none fun s =>
    let r := s.request (.rcinc d a b) (.sync s.cur.die 0) (s.rx a) (s.rx b) 0
    s.sendSync r (s.rx a) (.x d.toNat) false false

/-- R282, R337: the four lines of a snapshot's destination, and the window of KIND 2 that it lies behind. -/
def State.snapPlace (s : State) (va : Word) : Ans (List Loc × Option Nat) :=
  if va.toNat % 64 != 0 then .trap causeAlign va 64
  else
    match region va with
    | .global =>
      (Ans.all ((List.range 4).map fun i => s.global s.access (va.toNat + 64 * i) rightsRW)).bind fun ls => .ok (ls, none)
    | .window w o =>
      (s.winNeed w o 256 true va rightsRW).bind fun _ => .ok ((List.range 4).map fun i => s.winLoc (s.here.win w) (o + 64 * i), some w)
    | _ => accessFault va.toNat rightsRW

/-- One line of a snapshot written at a place; whether it met an uncorrectable error, which is reported (R263). -/
def State.snapLine (s : State) (l : Loc) (v asid : Nat) (who : Word) : State × Bool :=
  let bad := s.bad l 64
  let s := if bad then (s.taskFault s.cur.die s.cur.core s.cur.slot).syncUe (s.homeOf l s.cur.die) l 64 asid who else s
  ((s.poke l 64 v).snoop l, bad)

/-- R282: the 256 bytes of a snapshot written as four lines, through a window or at their places. -/
def State.writeSnapshot (s : State) (id v : Nat) (ls : List Loc) (win : Option Nat) (b : Word) : State :=
  match win with
  | none =>
    let who := BitVec.ofNat 64 (s.cur.slot + s.me.pc.toNat * 4 % 2 ^ 62)
    let x := ((List.range 4).zip ls).foldl (fun x e =>
      let y := State.snapLine x.1 e.2 (v / 2 ^ (512 * e.1) % 2 ^ 512) s.here.ctx.asid.toNat who
      (y.1, x.2 || y.2)) (s, false)
    (x.1.modPend s.cur.die s.cur.core s.cur.slot id fun p => { p with answered := true, vals := [if x.2 then 7 else 0] }).landLater
      s.cur.die s.cur.core s.cur.slot id .syncResultLands
  | some w =>
    let s := s.modPend s.cur.die s.cur.core s.cur.slot id fun p => { p with left := 4, vals := [0] }
    (List.range 4).foldl (fun s i =>
      let p := s.packetOf s.cur.die s.cur.core w (b.toNat % 2 ^ 32 + 64 * i) .snap
      s.newId.inject { p with slot := s.cur.slot, data := BitVec.ofNat 512 (v / 2 ^ (512 * i)), bytes := BitVec.allOnes 64
                              owner := id, pc := s.me.pc, addr := b }) s

/-- RCSNAP (R282). -/
def execRcsnap (d a b : BitVec 6) (g : BitVec 5) (s : State) : Out :=
  let va := s.rx b
  if 256 ≤ (s.rx a).toNat then
    (s.scopeNeed (some g.toNat)).run s fun _ => s.syncLocal (.x d.toNat) [fail 4]
  else
    ((s.snapPlace va).bind fun p => (s.scopeNeed (some g.toNat)).bind fun _ => .ok p).run s fun p =>
      if !s.myDie.rdy.getLsbD 19 then s.hold
      else
        s.syncReady s.cur.die p.2 (some g.toNat) fun s =>
          let id := s.ids
          let x := (s.addPend { Pend.new (.x d.toNat) with sync := true, acquire := true }).takeCounters s.cur.die (s.rx a).toNat
          .next (x.2.writeSnapshot id x.1 p.1 p.2 va).next4

end Sys2Proof.Machine
end

