-- ==== Sys2Proof/Machine/Lanes.lean ====
section
/-! DEFINITION. What the functional units compute from lanes and ports, as functions of the values alone (R160–R181). -/

namespace Sys2Proof

/-- Lanes of w bytes that the mask enables. -/
def VTrig.on (v : VTrig) (l : Nat) : Bool := v.mask.getLsbD l

/-! ### alu (R163, R164) -/

/-- A floating-point result, or an integer one modulo 2^w. -/
def EType.arith (t : EType) (ff : FFmt → Fp → Fp → Fp) (fi : Int → Int → Int) (a b : Nat) : Nat :=
  match t.fmt with
  | some f => f.encode (ff f (f.decode a) (f.decode b))
  | none => t.wrap (fi (t.int a) (t.int b))

/-- R164: the larger of two lanes (VMAX), which VREDM uses too. -/
def EType.maxLane (t : EType) (a b : Nat) : Nat := t.arith (fun _ x y => fmax x y) max a b
def EType.minLane (t : EType) (a b : Nat) : Nat := t.arith (fun _ x y => fmin x y) min a b
def EType.addLane (t : EType) (a b : Nat) : Nat := t.arith (fun f x y => fadd f .rne x y) (· + ·) a b

/-- All ones in a lane, or all zeros. -/
def EType.flag (t : EType) (b : Bool) : Nat := if b then 2 ^ (8 * t.w) - 1 else 0

/-- R164: a comparison of two lanes: false with a NaN. -/
def EType.compare (t : EType) (ff : Fp → Fp → Bool) (fi : Int → Int → Bool) (a b : Nat) : Bool :=
  match t.fmt with
  | some f => let x := f.decode a; let y := f.decode b; !x.isNan && !y.isNan && ff x y
  | none => fi (t.int a) (t.int b)

def EType.eqLane (t : EType) (a b : Nat) : Bool := t.compare Fp.same (fun x y => x == y) a b
def EType.ltLane (t : EType) (a b : Nat) : Bool := t.compare Fp.lt (fun x y => decide (x < y)) a b

/-- R164: a lane with its sign cleared, or changed; the canonical NaN for a NaN. -/
def EType.absLane (t : EType) (c : Nat) : Nat :=
  match t.fmt with
  | some f => let x := f.decode c; f.encode (if x.neg then x.negate else x)
  | none => t.wrap (t.int c).natAbs
def EType.negLane (t : EType) (c : Nat) : Nat :=
  match t.fmt with
  | some f => f.encode (f.decode c).negate
  | none => t.wrap (-(t.int c))

/-- R164: shifts of raw lane bits by a natural count. -/
def EType.shlLane (t : EType) (a n : Nat) : Nat := if 8 * t.w ≤ n then 0 else a * 2 ^ n % 2 ^ (8 * t.w)
def EType.shrLane (t : EType) (a n : Nat) : Nat := if 8 * t.w ≤ n then 0 else a / 2 ^ n
def EType.shraLane (t : EType) (a n : Nat) : Nat :=
  let w := 8 * t.w
  let i : Int := if 2 ^ (w - 1) ≤ a then (a : Int) - (2 ^ w : Nat) else a
  ((i / (2 ^ min n w : Nat)) % (2 ^ w : Nat)).toNat

/-- R164: leading zeros of a raw lane. -/
def EType.clzLane (t : EType) (a : Nat) : Nat := if a = 0 then 8 * t.w else 8 * t.w - 1 - a.log2

/-! ### fma (R165, R166) -/

/-- ±(a·b) ± c with one rounding, or modulo 2^w. -/
def EType.fused (t : EType) (np nc : Bool) (a b c : Nat) : Nat :=
  match t.fmt with
  | some f =>
    let p := Fp.mul (f.decode a) (f.decode b)
    let q := f.decode c
    f.encode (roundFp f .rne 0 (Fp.add .rne (if np then p.negate else p) (if nc then q.negate else q)))
  | none =>
    let p := t.int a * t.int b
    t.wrap ((if np then -p else p) + (if nc then -(t.int c) else t.int c))

/-- R165: the high half of a product, or the rounding error of a floating-point one. -/
def EType.mulhLane (t : EType) (a b : Nat) : Nat :=
  match t.fmt with
  | some f =>
    let x := f.decode a
    let y := f.decode b
    let p := Fp.mul x y
    let r := roundFp f .rne 0 p
    f.encode (if x.nonFinite || y.nonFinite then .nan
      else if r.nonFinite then .zero false
      else roundFp f .rne 0 (Fp.add .rne p r.negate))
  | none => t.wrap (t.int a * t.int b / (2 ^ (8 * t.w) : Nat))

/-- R166: the width of VDOT2's result lanes. -/
def EType.dotWidth (t : EType) : Nat :=
  match t with
  | .i8 => 2
  | .n8 => 2
  | _ => 4

/-- R166: one result lane of VDOT2. -/
def dotLane (t : EType) (a b x : Row) (l : Nat) : Nat :=
  let w := t.dotWidth
  if t.w = 4 then t.fused false false (t.lane a l) (t.lane x l) (t.lane b l)
  else
    match t.fmt with
    | some f =>
      let p := fun i => Fp.mul (f.decode (t.lane a i)) (f.decode (t.lane x i))
      fp32.encode (roundFp fp32 .rne 0 (sumProducts [p (2 * l), p (2 * l + 1), fp32.decode (laneW 4 b l)]))
    | none =>
      let p := fun i => t.int (t.lane a i) * t.int (t.lane x i)
      ((p (2 * l) + p (2 * l + 1) + (laneW w b l : Int)) % (2 ^ (8 * w) : Nat)).toNat

/-! ### cvt (R160, R169–R174) -/

/-- A field of the control value on port c (R160). -/
def VTrig.ctl (v : VTrig) (lo n : Nat) : Nat := v.c64.toNat / 2 ^ lo % 2 ^ n

/-- RM of the control value; a reserved one traps before the word has an effect. -/
def VTrig.rm (v : VTrig) : RMode := (RMode.ofCode (v.ctl 0 3)).getD .rne

/-- R174: the random bits of lane or element l. -/
def VTrig.rand (v : VTrig) (l : Nat) : Nat := rand32 v.a64 (v.ctl 32 32 * 128 + l)

/-- R169: the source lane that a destination lane is paired with, for ls source and ld destination lanes and part p. -/
def pairedLane (ls ld p d : Nat) : Option Nat :=
  if ld ≤ ls then some (p % (ls / ld) * ld + d)
  else if d / ls = p % (ld / ls) then some (d % ls) else none

/-- R169: enabled destination lanes with their source lane. -/
def VTrig.source (v : VTrig) (d : Nat) : Option Nat :=
  if v.on d then pairedLane v.ety.lanes v.dety.lanes (v.ctl 8 2) d else none

/-- R170: the elements that VQNT encodes. -/
def VTrig.quantElems (v : VTrig) (f : BFmt) : List (Fp × Nat) :=
  let first := v.ctl 11 7
  (List.range (min f.n (v.ety.lanes - first))).map fun i =>
    (v.ety.val (v.ety.lane v.t (first + i)), v.rand (first + i))

/-- R171: the block that VDQNT reads. -/
def VTrig.block (v : VTrig) : Nat := rowNat v.t (64 * v.ctl 8 1) 64

/-- R173: enabled source lanes that are NaN or infinite. -/
def VTrig.badLanes (v : VTrig) : Nat :=
  ((List.range v.dety.lanes).filter fun d =>
    ((v.source d).map fun l => v.ety.fmt.isSome && (v.ety.val (v.ety.lane v.t l)).nonFinite).getD false).length

/-! ### bsr (R175–R178) -/

/-- R177: the field width of lane l. -/
def VTrig.fieldWidth (v : VTrig) (l : Nat) : Nat := min (laneW 4 v.t l % 64) 32

/-! ### prm (R179–R181) -/

/-- R179: an index operand as a 64-bit signed integer. -/
def EType.index (t : EType) (c : Nat) : Int :=
  match t.fmt with
  | some f => roundInt (-(2 ^ 63 : Nat)) ((2 ^ 63 : Nat) - 1) .rtz 0 (f.decode c)
  | none => t.int c

/-- R179: Idx. -/
def floorMod (v : Int) (m : Nat) : Nat := (v % (m : Int)).toNat

/-- R180: one level of the tree. -/
def treeLevel (f : Nat → Nat → Nat) : List (Option Nat) → List (Option Nat)
  | some a :: some b :: rest => some (f a b) :: treeLevel f rest
  | some a :: none :: rest => some a :: treeLevel f rest
  | none :: b :: rest => b :: treeLevel f rest
  | xs => xs

/-- R180: k levels of the tree. -/
def treeFold (f : Nat → Nat → Nat) : Nat → List (Option Nat) → Option Nat
  | 0, xs => xs.head?.join
  | k + 1, xs => treeFold f k (treeLevel f xs)

/-- R44, R162: a lane passed into a result of the element type: a NaN becomes the canonical one. -/
def EType.canon (t : EType) (c : Nat) : Nat :=
  match t.fmt with
  | some f => if (f.decode c).isNan then f.encode .nan else c
  | none => c

/-- R181: the running sums from lane l on. -/
def scanLanes (v : VTrig) : Nat → Nat → Option Nat → List Nat
  | 0, _, _ => []
  | k + 1, l, acc =>
    let x := v.ety.lane v.t l
    let acc := if v.on l then some (match acc with | some a => v.ety.addLane a x | none => v.ety.canon x) else acc
    acc.getD 0 :: scanLanes v k (l + 1) acc

/-! ### mem (R184) -/

/-- The bytes that the mask enables. -/
def VTrig.bytes (v : VTrig) : BitVec 128 := byteMask v.ety.w fun l => v.mask.getLsbD l

/-- RM of VLDT; rsto converts with RNE. -/
def VTrig.blockMode (v : VTrig) : RMode :=
  match RMode.ofCode (v.c64.toNat / 16 % 8) with
  | some .rsto => .rne
  | some m => m
  | none => .rne

/-- The first element of VLDT. -/
def VTrig.firstElem (v : VTrig) : Nat := v.c64.toNat / 256 % 2 ^ 24

end Sys2Proof
end

