-- ==== Sys2Proof/Machine/Sfu.lean ====
section
/-! DEFINITION. The functions of the sfu unit (R167, R168): each as a value exact to many more bits than any element
type holds, with its special cases, and its delivery in an element type. -/

namespace Sys2Proof

/-! ### Fixed point with 400 fraction bits -/

/-- One. -/
def fxOne : Nat := 2 ^ 400

/-- π, ln 2 and 2/√π, cut at 400 fraction bits. -/
def fxPi : Nat := 0x3243f6a8885a308d313198a2e03707344a4093822299f31d0082efa98ec4e6c89452821e638d01377be5466cf34e90c6cc0ac
def fxLn2 : Nat := 0xb17217f7d1cf79abc9e3b39803f2f6af40f343267298b62d8a0d175b8baafa2be7b876206debac98559552fb4afa1b10ed2e
def fxErf : Nat := 0x120dd750429b6d11ae3a914fed7fd8688281341d7587cea2e7342b06199cc416180eb39f0b24e1e2281806c12d98f35d77a3e

/-- A product of fixed-point numbers. -/
def fxMul (a b : Int) : Int := a * b / (fxOne : Int)

/-- m·2^e in fixed point. -/
def fxOf (m : Nat) (e : Int) : Nat := shiftTo m (e + 400) 0

/-- The sum of a power series: term n is t, and the next one t·x/(n + 1). -/
def expSeries (x : Int) : Nat → Nat → Int → Int
  | 0, _, _ => 0
  | k + 1, n, t => t + expSeries x k (n + 1) (fxMul t x / ((n : Int) + 1))

/-- e^x for 0 ≤ x < 1. -/
def fxExp01 (x : Nat) : Nat := (expSeries x 100 0 fxOne).toNat

/-- e^x for x ≥ 0 as a fixed-point number and a power of 2. -/
def fxExp (x : Nat) : Nat × Nat := (fxExp01 (x % fxLn2), x / fxLn2)

/-- e^(−x) for x ≥ 0. -/
def fxExpNeg (x : Nat) : Nat :=
  let y := fxExp x
  fxOne * fxOne / (y.1 * 2 ^ y.2)

/-- The alternating series of sine (n = 1, t = x) and cosine (n = 0, t = 1): the next term is −t·x²/((n + 1)(n + 2)). -/
def sinSeries (x2 : Int) : Nat → Nat → Int → Int
  | 0, _, _ => 0
  | k + 1, n, t => t + sinSeries x2 k (n + 2) (-(fxMul t x2) / (((n : Int) + 1) * (n + 2)))

/-- sin and cos of a fixed-point angle that is not negative. -/
def fxSinCos (x : Nat) : Int × Int :=
  let q := x * 2 / fxPi
  let r : Int := ((x : Int) * 2 - q * fxPi) / 2
  let r2 := fxMul r r
  let s := sinSeries r2 60 1 r
  let c := sinSeries r2 60 0 fxOne
  match q % 4 with
  | 0 => (s, c)
  | 1 => (c, -s)
  | 2 => (-s, -c)
  | _ => (-c, s)

/-- The series of artanh: t is x^n. -/
def atanhSeries (x2 : Nat) : Nat → Nat → Nat → Nat
  | 0, _, _ => 0
  | k + 1, n, t => t / n + atanhSeries x2 k (n + 2) (t * x2 / fxOne)

/-- log2 z for a fixed-point z from 1 to 2. -/
def fxLog2 (z : Nat) : Nat :=
  let r := (z - fxOne) * fxOne / (z + fxOne)
  2 * atanhSeries (r * r / fxOne) 140 1 r * fxOne / fxLn2

/-- The series of erf without its factor: t is ±x^(2n+1)/n!, divided by 2n + 1 in the sum. -/
def erfSeries (x2 : Int) : Nat → Nat → Int → Int
  | 0, _, _ => 0
  | k + 1, n, t => t / (2 * (n : Int) + 1) + erfSeries x2 k (n + 1) (-(fxMul t x2) / ((n : Int) + 1))

/-- A fixed-point result that is not exact. -/
def fxResult (neg : Bool) (v : Nat) : Fp := sticky neg v true (-400)

/-- A signed fixed-point result. -/
def fxSigned (v : Int) : Fp := fxResult (v < 0) v.natAbs

/-! ### The functions on a positive or signed finite operand ±m·2^e -/

/-- |x| ≥ 2^k. -/
def magAtLeast (m : Nat) (e k : Int) : Bool := k ≤ (m.log2 : Int) + e

/-- A magnitude just above zero, and the one just below 1. -/
def almostZero (neg : Bool) : Fp := .fin neg 1 (-400)
def almostOne (neg : Bool) : Fp := .fin neg (2 ^ 400 - 1) (-400)

/-- 2^±(m·2^e): an exact power where the operand is an integer (R167). -/
def exp2Fin (neg : Bool) (m : Nat) (e : Int) : Fp :=
  if magAtLeast m e 16 then .fin false 1 (if neg then -65536 else 65536)
  else
    let x := fxOf m e
    let k : Int := x / fxOne
    let f := x % fxOne
    if f = 0 then .fin false 1 (if neg then -k else k)
    else
      let g := if neg then fxOne - f else f
      sticky false (fxExp01 (g * fxLn2 / fxOne)) true ((if neg then -k - 1 else k) - 400)

/-- log2 (m·2^e): exact where the operand is a power of 2 (R167). -/
def log2Fin (m : Nat) (e : Int) : Fp :=
  let k : Int := (m.log2 : Int) + e
  if m = 2 ^ m.log2 then fpOfInt k
  else fxSigned (k * fxOne + fxLog2 (shiftTo m 400 m.log2))

/-- 1/√(m·2^e). -/
def rsqFin (m : Nat) (e : Int) : Fp :=
  let h := e / 2
  let m' := if e % 2 = 0 then m else 2 * m
  let v := 2 ^ 800 / m'
  let r := isqrt v
  sticky false r (r * r * m' != 2 ^ 800) (-400 - h)

/-- tanh of a magnitude. -/
def tanhFin (neg : Bool) (m : Nat) (e : Int) : Fp :=
  if magAtLeast m e 7 then almostOne neg
  else
    let t := fxExpNeg (2 * fxOf m e)
    fxResult neg ((fxOne - t) * fxOne / (fxOne + t))

/-- 1/(1 + e^−x). -/
def sigmFin (neg : Bool) (m : Nat) (e : Int) : Fp :=
  if magAtLeast m e 8 then (if neg then almostZero false else almostOne false)
  else
    let t := fxExpNeg (fxOf m e)
    fxResult false ((if neg then t else fxOne) * fxOne / (fxOne + t))

/-- erf of a magnitude. -/
def erfFin (neg : Bool) (m : Nat) (e : Int) : Fp :=
  if magAtLeast m e 3 then almostOne neg
  else
    let x := fxOf m e
    let s := erfSeries (x * x / fxOne : Nat) 400 0 x
    fxResult neg (s.toNat * fxErf / fxOne)

/-- The operations of the sfu unit, in the order of their op6 (R94). -/
inductive SfuOp where
  | rcp | rsq | sqrt | exp2 | log2 | sin | cos | tanh | sigm | erf
  deriving DecidableEq, Repr

/-- The number of an operation (R94). -/
def SfuOp.code : SfuOp → Nat
  | .rcp => 0
  | .rsq => 1
  | .sqrt => 2
  | .exp2 => 3
  | .log2 => 4
  | .sin => 5
  | .cos => 6
  | .tanh => 7
  | .sigm => 8
  | .erf => 9

/-- R167: the function of an operation, with its special values; a finite result may carry a sticky bit. -/
def sfuValue (op : SfuOp) (x : Fp) : Fp :=
  match op, x with
  | _, .nan => .nan
  | .rcp, .zero n => .inf n
  | .rcp, .inf n => .zero n
  | .rcp, .fin n m e => sticky n (2 ^ 800 / m) (2 ^ 800 % m != 0) (-800 - e)
  | .rsq, .zero n => .inf n
  | .rsq, .inf n => if n then .nan else .zero false
  | .rsq, .fin n m e => if n then .nan else rsqFin m e
  | .sqrt, x => x.sqrt
  | .exp2, .zero _ => .fin false 1 0
  | .exp2, .inf n => if n then .zero false else .inf false
  | .exp2, .fin n m e => exp2Fin n m e
  | .log2, .zero _ => .inf true
  | .log2, .inf n => if n then .nan else .inf false
  | .log2, .fin n m e => if n then .nan else log2Fin m e
  | .sin, .zero n => .zero n
  | .sin, .inf _ => .nan
  | .sin, .fin n m e => let v := (fxSinCos (fxOf m e)).1; fxSigned (if n then -v else v)
  | .cos, .zero _ => .fin false 1 0
  | .cos, .inf _ => .nan
  | .cos, .fin _ m e => fxSigned (fxSinCos (fxOf m e)).2
  | .tanh, .zero n => .zero n
  | .tanh, .inf n => .fin n 1 0
  | .tanh, .fin n m e => tanhFin n m e
  | .sigm, .zero _ => .fin false 1 (-1)
  | .sigm, .inf n => if n then .zero false else .fin false 1 0
  | .sigm, .fin n m e => sigmFin n m e
  | .erf, .zero n => .zero n
  | .erf, .inf n => .fin n 1 0
  | .erf, .fin n m e => erfFin n m e

/-! ### Delivery (R168) -/

/-- FP32 codes in the order of their values, −0 just below +0. -/
def f32Ord (c : Nat) : Int := if c < 2 ^ 31 then c else -1 - ((c - 2 ^ 31 : Nat) : Int)
def f32OfOrd (i : Int) : Nat := if 0 ≤ i then i.toNat else (-1 - i).toNat + 2 ^ 31

/-- The bound of an f32 result as a magnitude: that many ulp of the exact result, or 2^−20 for a sine or cosine of a
large operand. -/
def sfuBound (op : SfuOp) (x : Fp) (m : Nat) (e : Int) : Fp :=
  let ulp : Int := max ((m.log2 : Int) + e) (-126) - 23
  let trig := match op with
    | .sin => true
    | .cos => true
    | _ => false
  let large := match x with
    | .fin _ a b => !magLe a b 1 16
    | _ => false
  if trig && large then .fin false 1 (-20)
  else
    match op with
    | .rcp => .fin false 1 ulp
    | .rsq => .fin false 1 ulp
    | _ => .fin false 2 ulp

/-- Whether R167 or R168 fixes the f32 result of a finite operand: square roots, and the exact powers and logarithms. -/
def sfuFixed (op : SfuOp) (x : Fp) : Bool :=
  match op, x with
  | .sqrt, _ => true
  | .exp2, .fin _ m e => fxOf m e % fxOne == 0 && magAtLeast m e 0
  | .log2, .fin _ m _ => m == 2 ^ m.log2
  | _, .fin _ _ _ => false
  | _, _ => true

/-- R168: an f32 result: one of the codes within the bound, which the manual does not publish (log 6, DESIGN CHOICE). -/
def sfuF32 (op : SfuOp) (c : Nat) : Nat :=
  let x := fp32.decode c
  let r := sfuValue op x
  match r with
  | .fin _ m e =>
    if sfuFixed op x then fp32.encode (roundFp fp32 .rne 0 r)
    else
      let b := sfuBound op x m e
      let lo := f32Ord (fp32.encode (roundFp fp32 .rup 0 (Fp.add .rne r b.negate)))
      let near := roundFp fp32 .rne 0 r
      let hi := f32Ord (fp32.encode (if near.nonFinite then near else roundFp fp32 .rdn 0 (Fp.add .rne r b)))
      f32OfOrd (lo + (Config.sfuPick op.code (BitVec.ofNat 32 c) % (hi - lo + 1).toNat : Nat))
  | _ => fp32.encode r

/-- R167, R168: a lane of an sfu result. -/
def sfuLane (op : SfuOp) (t : EType) (c : Nat) : Nat :=
  match t with
  | .f32 => sfuF32 op c
  | _ => t.conv .rne 0 (sfuValue op (t.val c))

end Sys2Proof
end

