-- ==== Sys2Proof/Machine/Vector.lean ====
section
/-! DEFINITION. The functional units of the vector engine: what each trigger does with its ports (R161–R181). -/

namespace Sys2Proof.Machine
open Sys2Proof

/-! ### A trigger's result on its way (R24, R25, R161) -/

/-- The end of a trigger: the translations of its word are no longer needed once no other trigger of it waits (R156). -/
def State.trigDone (s : State) : State :=
  if s.now.any fun e => e.who.trig.isSome && e.who.die == s.cur.die && e.who.core == s.cur.core && e.who.slot == s.cur.slot then s
  else s.upMe fun x => { x with xl := [] }

/-- A landing of the slot that the step concerns, n clk from now (log 41, DEDUCED). -/
def State.addLanding (s : State) (l : Landing) (n : Nat) (op : Instr) : State :=
  let l := { l with id := s.ids, due := s.clk + n, sw := s.here.sw }
  ((s.upMe fun x => { x with lands := x.lands ++ [l] }).newId).later n { who := { s.cur with id := s.ids, trig := none }, op := op }

/-- A result row of a unit, of which it writes some bytes, lands after the unit's latency. -/
def State.unitResult (s : State) (v : VTrig) (n : Nat) (data : Row) (bytes : BitVec 128) : State :=
  s.addLanding
    { id := 0, due := 0, kind := if v.nw then .latch else .row, unit := v.unit, row := v.drow, data := data, bytes := bytes
      cells := [], sw := 0, fromRec := false, pc := v.pc, arrival := none } n .resultLanding

/-- A step that has a trigger on its ports (R158). -/
def State.onPorts (s : State) (k : VTrig → State) : Out :=
  match s.cur.trig with
  | some v => .next (k v).trigDone
  | none => .next s

/-- Result lanes of w bytes under the mask role write: the other lanes are 0 in the latch and keep their bytes in the
row (R161). -/
def State.writeLanes (s : State) (v : VTrig) (n w : Nat) (f : Nat → Nat) : State :=
  s.unitResult v n (rowOfLanes w ((List.range (128 / w)).map fun l => if v.on l then f l else 0)) (byteMask w v.on)

/-- Result lanes that are all written (mask role select). -/
def State.allLanes (s : State) (v : VTrig) (n w : Nat) (f : Nat → Nat) : State :=
  s.unitResult v n (rowOfLanes w ((List.range (128 / w)).map f)) (BitVec.allOnes 128)

/-- An elementwise operation on ports a, b and t. -/
def State.lanewise (s : State) (n : Nat) (f : EType → Nat → Nat → Nat → Nat) : Out :=
  s.onPorts fun v => s.writeLanes v n v.ety.w fun l => f v.ety (v.ety.lane v.a l) (v.ety.lane v.b l) (v.ety.lane v.t l)

/-! ### alu (R163, R164) -/

/-- VADD (R163). -/
def execVadd (s : State) : Out := s.lanewise 2 fun t a _ x => t.addLane a x

/-- VSUB (R163). -/
def execVsub (s : State) : Out := s.lanewise 2 fun t a _ x => t.arith (fun f p q => fadd f .rne p q.negate) (· - ·) a x

/-- VMIN (R164). -/
def execVmin (s : State) : Out := s.lanewise 2 fun t a _ x => t.minLane a x

/-- VMAX (R164). -/
def execVmax (s : State) : Out := s.lanewise 2 fun t a _ x => t.maxLane a x

/-- VABS (R163). -/
def execVabs (s : State) : Out := s.lanewise 2 fun t _ _ x => t.absLane x

/-- VNEG (R163). -/
def execVneg (s : State) : Out := s.lanewise 2 fun t _ _ x => t.negLane x

/-- VAND (R163). -/
def execVand (s : State) : Out := s.lanewise 2 fun _ a _ x => a &&& x

/-- VOR (R163). -/
def execVor (s : State) : Out := s.lanewise 2 fun _ a _ x => a ||| x

/-- VXOR (R163). -/
def execVxor (s : State) : Out := s.lanewise 2 fun _ a _ x => a ^^^ x

/-- VSHL (R164). -/
def execVshl (s : State) : Out := s.lanewise 2 fun t a _ x => t.shlLane a x

/-- VSHR (R164). -/
def execVshr (s : State) : Out := s.lanewise 2 fun t a _ x => t.shrLane a x

/-- VSHRA (R164). -/
def execVshra (s : State) : Out := s.lanewise 2 fun t a _ x => t.shraLane a x

/-- VCEQ (R163). -/
def execVceq (s : State) : Out := s.lanewise 2 fun t a _ x => t.flag (t.eqLane a x)

/-- VCNE (R163). -/
def execVcne (s : State) : Out := s.lanewise 2 fun t a _ x => t.flag (!t.eqLane a x)

/-- VCLT (R163). -/
def execVclt (s : State) : Out := s.lanewise 2 fun t a _ x => t.flag (t.ltLane a x)

/-- VCLE (R163). -/
def execVcle (s : State) : Out := s.lanewise 2 fun t a _ x => t.flag (t.ltLane a x || t.eqLane a x)

/-- VSEL (R163). -/
def execVsel (s : State) : Out := s.lanewise 2 fun _ a b x => if a ≠ 0 then b else x

/-- VMOV (R163). -/
def execVmov (s : State) : Out := s.lanewise 2 fun _ _ _ x => x

/-- VCLZ (R164). -/
def execVclz (s : State) : Out := s.lanewise 2 fun t _ _ x => t.clzLane x

/-- VPOPC (R164). -/
def execVpopc (s : State) : Out := s.lanewise 2 fun t _ _ x => popNat (8 * t.w) x

/-! ### fma (R165, R166) -/

/-- VMUL (R165). -/
def execVmul (s : State) : Out := s.lanewise 4 fun t a _ x => t.arith (fun f p q => fmul f .rne p q) (· * ·) a x

/-- VFMA (R165). -/
def execVfma (s : State) : Out := s.lanewise 4 fun t a b x => t.fused false false a b x

/-- VFMS (R165). -/
def execVfms (s : State) : Out := s.lanewise 4 fun t a b x => t.fused false true a b x

/-- VFNMA (R165). -/
def execVfnma (s : State) : Out := s.lanewise 4 fun t a b x => t.fused true false a b x

/-- VMULH (R165). -/
def execVmulh (s : State) : Out := s.lanewise 4 fun t a _ x => t.mulhLane a x

/-- VDOT2 (R166). -/
def execVdot2 (s : State) : Out := s.onPorts fun v => s.writeLanes v 4 v.ety.dotWidth (dotLane v.ety v.a v.b v.t)

/-! ### sfu (R167, R168) -/

/-- An sfu operation. -/
def State.sfu (s : State) (op : SfuOp) : Out := s.lanewise 12 fun t _ _ x => sfuLane op t x

/-- VRCP (R167). -/
def execVrcp (s : State) : Out := s.sfu .rcp

/-- VRSQ (R167). -/
def execVrsq (s : State) : Out := s.sfu .rsq

/-- VSQRT (R167). -/
def execVsqrt (s : State) : Out := s.sfu .sqrt

/-- VEXP2 (R167). -/
def execVexp2 (s : State) : Out := s.sfu .exp2

/-- VLOG2 (R167). -/
def execVlog2 (s : State) : Out := s.sfu .log2

/-- VSIN (R167). -/
def execVsin (s : State) : Out := s.sfu .sin

/-- VCOS (R167). -/
def execVcos (s : State) : Out := s.sfu .cos

/-- VTANH (R167). -/
def execVtanh (s : State) : Out := s.sfu .tanh

/-- VSIGM (R167). -/
def execVsigm (s : State) : Out := s.sfu .sigm

/-- VERF (R167). -/
def execVerf (s : State) : Out := s.sfu .erf

/-! ### cvt (R160, R169–R174) -/

/-- A conversion placed as R169 lays down. -/
def State.convertLanes (s : State) (v : VTrig) (f : Nat → Nat) : State :=
  let w := v.dety.w
  s.unitResult v 4 (rowOfLanes w ((List.range (128 / w)).map fun d => ((v.source d).map f).getD 0))
    (byteMask w fun d => (v.source d).isSome)

/-- VCVT (R169). -/
def execVcvt (s : State) : Out :=
  s.onPorts fun v => s.convertLanes v fun l => v.dety.conv v.rm (v.rand l) (v.ety.val (v.ety.lane v.t l))

/-- VQNT (R170). -/
def execVqnt (s : State) : Out :=
  s.onPorts fun v =>
    let code := v.ctl 3 5
    match blockFmt code with
    | none => s
    | some f =>
      let h := v.ctl 8 1
      let b := encodeBlock code f v.rm (v.ctl 10 1 == 1) (v.quantElems f)
      s.unitResult v 4 (BitVec.ofNat 1024 (b * 2 ^ (512 * h))) (BitVec.ofNat 128 ((2 ^ 64 - 1) * 2 ^ (64 * h)))

/-- VDQNT (R171). -/
def execVdqnt (s : State) : Out :=
  s.onPorts fun v =>
    match blockFmt (blkFmt v.block) with
    | none => s
    | some f =>
      s.writeLanes v 4 v.dety.w fun l =>
        let j := v.ctl 11 7 + l
        if j < f.n then v.dety.conv v.rm (v.rand j) (blkVal f v.block j) else 0

/-- VSRND (R172). -/
def execVsrnd (s : State) : Out :=
  s.onPorts fun v =>
    match blockFmt (v.ctl 3 5) with
    | none => s
    | some f =>
      s.convertLanes v fun l =>
        v.dety.conv .rne 0 (f.decode (f.conv v.rm (v.rand l) (v.ety.val (v.ety.lane v.t l))))

/-- The kind under which a non-finite event is posted (R431). -/
def kindNonFinite : Nat := 0x100

/-- R431: the non-finite event of a core, posted once until SEEN is cleared; the command core sets its token. -/
def State.nonFinite (s : State) (d c src token val : Nat) : State :=
  if (s.core d c).nfSeen then s
  else
    ((s.modCore d c fun k => { k with nfSeen := true, nfSrc := BitVec.ofNat 2 src, nfToken := BitVec.ofNat 32 token }).askToken d
      token).post d kindNonFinite (BitVec.ofNat 64 (token + c * 2 ^ 32 + src * 2 ^ 48 + val * 2 ^ 56)) (BitVec.ofNat 64 s.clk)

/-- R429, R432: a non-finite counter of a die increased by n, saturating. -/
def State.countNonFinite (s : State) (d c i n : Nat) : State :=
  if n = 0 then s
  else
    let o := (s.core d c).nfOff.toNat * 1024 + 4 * i
    let l := Loc.sync d o
    (s.poke l 4 (min (2 ^ 32 - 1) (s.peek l 4 + n))).snoop l

/-- VNFC (R173). -/
def execVnfc (s : State) : Out :=
  s.onPorts fun v =>
    let pol := s.here.nfPol
    let n := v.badLanes
    let s' := s.convertLanes v fun l =>
      let x := v.ety.val (v.ety.lane v.t l)
      v.dety.conv .rne 0 (if pol && x.nonFinite then .zero false else x)
    if n = 0 then s'
    else if pol then s'.countNonFinite s.cur.die s.cur.core (v.ctl 0 8) n
    else s'.nonFinite s.cur.die s.cur.core 0 (((s.taskOf s.cur.die s.cur.core s.cur.slot).map (·.ctk)).getD 0) s.cur.slot

/-! ### bsr (R175–R178) -/

/-- R176: Word(r, l); 0 at or beyond the row count. -/
def Core.streamWord (k : Core) (r l : Nat) : Nat := if r < k.part.rows then laneW 4 (k.row r) l else 0

/-- The bit-stream state of the slot replaced. -/
def State.setStream (s : State) (b : BitStream) : State := s.upMe fun x => { x with bs := b }

/-- VBSI (R176): REF may pass the row count by 1, where Word gives 0 (log 84, DEDUCED). -/
def execVbsi (s : State) : Out :=
  s.onPorts fun v =>
    let k := s.here
    let b := s.me.bs
    let win := fun (l : Nat) => match v.trow with
      | some r => BitVec.ofNat 64 (k.streamWord (r + 1) l * 2 ^ 32 + k.streamWord r l)
      | none => BitVec.ofNat 64 (laneW 4 v.t l)
    let ref := match v.trow with
      | some r => r + 2
      | none => k.part.rows
    s.setStream { win := Vector.ofFn fun l => if v.on l.val then win l.val else b.win[l]
                  cur := Vector.ofFn fun l => if v.on l.val then 0 else b.cur[l]
                  ref := Vector.ofFn fun l => if v.on l.val then ref else b.ref[l] }

/-- R177: lane l refills its window. -/
def BitStream.refills (b : BitStream) (v : VTrig) (l : Nat) : Bool := v.on l && 32 ≤ vget b.cur l 0 + v.fieldWidth l

/-- R177: the field of lane l, extended by ETYPE. -/
def BitStream.field (b : BitStream) (v : VTrig) (l : Nat) : Nat :=
  let w := v.fieldWidth l
  let f := (vget b.win l 0).toNat / 2 ^ vget b.cur l 0 % 2 ^ w
  if v.ety.signed && w != 0 && 2 ^ (w - 1) ≤ f then f + 2 ^ 32 - 2 ^ w else f

/-- VBSR (R177). -/
def execVbsr (s : State) : Out :=
  s.onPorts fun v =>
    let k := s.here
    let b := s.me.bs
    let next : BitStream :=
      { win := Vector.ofFn fun l =>
          if b.refills v l.val then BitVec.ofNat 64 (b.win[l].toNat / 2 ^ 32 + k.streamWord b.ref[l] l.val * 2 ^ 32) else b.win[l]
        cur := Vector.ofFn fun l => if v.on l.val then (b.cur[l] + v.fieldWidth l.val) % 32 else b.cur[l]
        ref := Vector.ofFn fun l => if b.refills v l.val then min (b.ref[l] + 1) k.part.rows else b.ref[l] }
    (s.writeLanes v 2 4 (b.field v)).setStream next

/-- VBSQ (R178). -/
def execVbsq (s : State) : Out :=
  s.onPorts fun v =>
    let b := s.me.bs
    s.writeLanes v 2 4 fun l => vget b.cur l 0 % 64 + vget b.ref l 0 % 2 ^ 14 * 2 ^ 16

/-! ### prm (R179–R181) -/

/-- VPERM (R179). -/
def execVperm (s : State) : Out :=
  s.onPorts fun v => s.writeLanes v 6 v.ety.w fun l => v.ety.lane v.a (floorMod (v.ety.index (v.ety.lane v.t l)) v.ety.lanes)

/-- VSHUF (R179). -/
def execVshuf (s : State) : Out :=
  s.onPorts fun v =>
    let n := v.ety.lanes
    s.writeLanes v 6 v.ety.w fun l =>
      let i := floorMod (v.ety.index (v.ety.lane v.t l)) (2 * n)
      if i < n then v.ety.lane v.a i else v.ety.lane v.b (i - n)

/-- VBCST (R179). -/
def execVbcst (s : State) : Out :=
  s.onPorts fun v =>
    let i := floorMod (v.ety.index (v.ety.lane v.t 0)) v.ety.lanes
    s.writeLanes v 6 v.ety.w fun _ => v.ety.lane v.a i

/-- R180: a reduction of the enabled lanes, in every lane. -/
def State.reduce (s : State) (f : EType → Nat → Nat → Nat) : Out :=
  s.onPorts fun v =>
    let xs := (List.range v.ety.lanes).map fun l => if v.on l then some (v.ety.lane v.t l) else none
    let r := (treeFold (f v.ety) 7 xs).getD 0
    s.allLanes v 6 v.ety.w fun _ => v.ety.canon r

/-- VREDA (R180). -/
def execVreda (s : State) : Out := s.reduce EType.addLane

/-- VREDM (R180). -/
def execVredm (s : State) : Out := s.reduce EType.maxLane

/-- VSCAN (R181). -/
def execVscan (s : State) : Out :=
  s.onPorts fun v => s.unitResult v 6 (rowOfLanes v.ety.w (scanLanes v v.ety.lanes 0 none)) (BitVec.allOnes 128)

/-- VCMPR (R181). -/
def execVcmpr (s : State) : Out :=
  s.onPorts fun v =>
    let ls := (List.range v.ety.lanes).filter fun l => v.on l && v.ety.lane v.a l != 0
    s.unitResult v 6 (rowOfLanes v.ety.w (ls.map fun l => v.ety.lane v.t l)) (BitVec.allOnes 128)

end Sys2Proof.Machine
end

