-- ==== Sys2Proof/Machine/VecMem.lean ====
section
/-! DEFINITION. The mem unit of the vector engine: its accesses, what they wait for, and what its triggers do
(R182–R189). -/

namespace Sys2Proof.Machine
open Sys2Proof

/-! ### The accesses of a trigger (R182, R183) -/

/-- What a mem operation accesses. -/
inductive MemForm where
  /-- the 128 bytes at an address, in two halves -/
  | row (base : Word)
  /-- an element for each lane, at a base plus a multiple of the lane number -/
  | strided (base stride : Word)
  /-- an element for each lane, at a base plus its index -/
  | indexed (base : Word)
  deriving DecidableEq, Repr

/-- One access: its address, its bytes, and the byte of the row that its first byte is. -/
structure Piece where
  va : Word
  n : Nat
  at_ : Nat
  deriving DecidableEq, Repr

/-- The accesses of a trigger, for its enabled lanes, in lane order. -/
def pieces (v : VTrig) (f : MemForm) : List Piece :=
  let w := v.ety.w
  let elem := fun (va : Nat → Word) => ((List.range v.ety.lanes).filter fun l => v.mask.getLsbD l).map fun l =>
    { va := va l, n := w, at_ := l * w : Piece }
  match f with
  | .row b =>
    ((List.range 2).filter fun h => (List.range (64 / w)).any fun l => v.mask.getLsbD (h * (64 / w) + l)).map fun h =>
      { va := b + BitVec.ofNat 64 (64 * h), n := 64, at_ := 64 * h }
  | .strided b st => elem fun l => b + BitVec.ofNat 64 l * st
  | .indexed b => elem fun l => b + BitVec.ofInt 64 (v.ety.index (v.ety.lane v.t l) * w)

/-- Bytes of a piece that the mask enables, as offsets from its start with the byte of the row. -/
def pieceBytes (v : VTrig) (p : Piece) : List (Nat × Nat) :=
  ((List.range p.n).filter fun i => (v.mask.getLsbD ((p.at_ + i) / v.ety.w))).map fun i => (i, p.at_ + i)

/-- The parts of a piece that its enabled lanes access, as offset in the piece and length (R182). -/
def pieceParts (v : VTrig) (p : Piece) : List (Nat × Nat) :=
  let w := v.ety.w
  ((List.range (p.n / w)).filter fun i => v.mask.getLsbD (p.at_ / w + i)).map fun i => (i * w, w)

/-- A piece with its place. -/
abbrev Placed := Piece × Place

/-- R189: a row access whose halves go through one window to different targets. -/
def State.splitRow (s : State) (f : MemForm) (w o : Nat) : Bool :=
  match f with
  | .row b =>
    let x := s.here.win w
    match s.winLoc x o, s.winLoc x (if BitVec.ofNat 64 (o % 2 ^ 32) = b &&& 0xFFFFFFFF then o + 64 else o - 64) with
    | .cistern d c _, .cistern d' c' _ => d != d' || c != c'
    | _, _ => false
  | _ => false

/-- R188: the place of one access, with its alignment, translation and access faults (log 31, DEDUCED). Through a window the
enabled lanes alone are checked (R182, R337). -/
def State.placePiece (s : State) (v : VTrig) (f : MemForm) (rt : Rights) (p : Piece) : Ans Placed :=
  let align := match f with
    | .row _ => 64
    | _ => p.n
  (s.operand p.va p.n align rt).bind fun pl =>
    match pl with
    | .win w o =>
      if (pieceParts v p).all fun q => s.winOk (s.here.win w) (o + q.1) q.2 true false rt.w then .ok (p, pl)
      else if s.splitRow f w o then .trap causeAccess p.va 64 else accessFault p.va.toNat rt
    | _ => .ok (p, pl)

/-- The own-cistern offset of a placed piece. -/
def State.ownPiece (s : State) (p : Placed) : Option Nat :=
  match p.2 with
  | .loc l => match region p.1.va with
    | .own _ => s.isOwn l
    | _ => none
  | _ => none

/-- R186, R230, R30, R188: what an own-cistern access of a piece meets. -/
def State.ownPieceReady (s : State) (v : VTrig) (rt : Rights) (p : Placed) : Ans Placed :=
  match s.ownPiece p with
  | none => .ok p
  | some o =>
    (s.ownParts o p.1.n (pieceParts v p.1) rt).bind fun _ =>
      if rt.r && (pieceBytes v p.1).any fun b => s.here.cistern.poisoned unitSram (o + b.1) 1 then
        .trap causePoison p.1.va 0
      else .ok p

/-- R299: the bytes of a versioned row or strided load, which one tile of one core must hold; of a gather, each lane's. -/
def State.versionedPieces (s : State) (f : MemForm) (ps : List Placed) : Ans Unit :=
  let vs := ps.filterMap fun p => match p.2 with
    | .versioned c o => some (c, o, p.1)
    | _ => none
  match vs with
  | [] => .ok ()
  | (c, o, p) :: _ =>
    match f with
    | .indexed _ => (Ans.all (vs.map fun x => s.versionedOk x.1 x.2.1 x.2.2.n x.2.2.va)).bind fun _ => .ok ()
    | _ =>
      match vs.find? fun x => x.1 != c with
      | some x => accessFault x.2.2.va.toNat rightsR
      | none =>
        let lo := vs.foldl (fun m x => min m x.2.1) o
        let hi := vs.foldl (fun m x => max m (x.2.1 + x.2.2.n)) (o + p.n)
        s.versionedOk c lo (hi - lo) p.va

/-- Entries of the vector queue that are taken (R157). -/
def Core.vqTaken (k : Core) : Nat := (k.slots.toList.map fun x => (x.pend.filter (·.vq)).length).sum

/-- The ordering class of a trigger (R187). -/
def memClass (v : VTrig) : Nat := v.c64.toNat % 16

/-! ### Stores through windows (R189, R297, R340) -/

/-- Bytes for one line of a window: window, line, data and mask. -/
structure WinLine where
  win : Nat
  line : Nat
  data : Nat
  mask : Nat
  deriving DecidableEq, Repr

/-- One byte put into its line, which is opened after the others when it is new. -/
def putWinByte (ls : List WinLine) (w o b : Nat) : List WinLine :=
  match ls with
  | [] => [{ win := w, line := o / 64, data := b * 2 ^ (8 * (o % 64)), mask := 2 ^ (o % 64) }]
  | x :: rest =>
    if x.win = w && x.line = o / 64 then
      let old := x.data / 2 ^ (8 * (o % 64)) % 256
      { x with data := x.data - old * 2 ^ (8 * (o % 64)) + b * 2 ^ (8 * (o % 64))
               mask := if x.mask / 2 ^ (o % 64) % 2 = 1 then x.mask else x.mask + 2 ^ (o % 64) } :: rest
    else x :: putWinByte rest w o b

/-- The lines that a store of a trigger posts. -/
def winLines (v : VTrig) (data : Row) (ps : List Placed) : List WinLine :=
  ps.foldl (fun ls p =>
    match p.2 with
    | .win w o => (pieceBytes v p.1).foldl (fun ls b => putWinByte ls w (o + b.1) (rowNat data b.2 1)) ls
    | _ => ls) []

/-- Sluice units that posting lines in order takes from window w, with the lines of the newest entry so far. -/
def unitsOfLines (newest : Nat → Option Nat) (w : Nat) : List WinLine → Nat
  | [] => 0
  | x :: rest =>
    (if x.win = w && newest w != some x.line then 1 else 0) +
      unitsOfLines (fun i => if i = x.win then some x.line else newest i) w rest

/-- R189: every window that a store uses has allowance for all of its packets. -/
def State.sluiceAllows (s : State) (cls : Nat) (ls : List WinLine) : Bool :=
  let k := s.here
  (ls.map (·.win)).all fun w =>
    unitsOfLines (fun i => (newestEntry k.comb i cls).map (·.line)) w ls ≤ (k.win w).free

/-! ### What a word waits for (R157, R186, R189) -/

/-- The phaser line of a VSTA (R185): its place within the sync grant of the context, on whichever die it lies (R440), or the
access fault. -/
def State.vstaPhaser (s : State) (v : VTrig) : Ans (Loc × Option Nat) :=
  let grant := fun (p : Loc × Option Nat) =>
    match p.1 with
    | .sync _ o => if s.granted s.cur.die s.cur.core o then (.ok p : Ans (Loc × Option Nat)) else .trap causeAccess v.t64 1
    | _ => .trap causeAccess v.t64 1
  if v.t64.toNat % 64 != 0 then .trap causeAccess v.t64 1
  else
    match region v.t64 with
    | .sync _ => (s.syncPlace v.t64 64 64 .handle).bind grant
    | .window _ _ => (s.syncPlace v.t64 64 64 .handle).bind grant
    | _ => .trap causeAccess v.t64 1

/-- Every access of a load or store placed: the first fault in lane order, poison among them, then the waits (R188) (log 31,
DEDUCED). -/
def State.vAccess (s : State) (v : VTrig) (f : MemForm) (rt : Rights) : Ans (List Placed) :=
  (Ans.faultsFirst ((pieces v f).map fun p => (s.placePiece v f rt p).bind (s.ownPieceReady v rt))).bind fun ps =>
    (s.versionedPieces f ps).bind fun _ => .ok ps

/-- R187, R285: what accesses outside the own cistern wait for besides: a sync engine that is not ready, and a store of the class
into the own cistern. -/
def State.elsewhereWaits (s : State) (v : VTrig) (ps : List Placed) : Bool :=
  ps.any fun p => match p.2 with
    | .loc l => s.syncWaits l || ((s.ownPiece p).isNone && s.classWaits (memClass v))
    | .versioned _ _ => s.classWaits (memClass v)
    | .win _ _ => false

/-- All accesses lie in the own cistern. -/
def State.allOwn (s : State) (ps : List Placed) : Bool := ps.all fun p => (s.ownPiece p).isSome

/-- R186: whether a load has the fixed latency. -/
def State.fixedLoad (s : State) (f : MemForm) (ps : List Placed) : Bool :=
  s.allOwn ps && (match f with
    | .indexed _ => false
    | _ => true)

/-- The accesses of a load, when it can issue. -/
def State.vLoadReady (s : State) (v : VTrig) (f : MemForm) : Ans (List Placed) :=
  (s.vAccess v f rightsR).bind fun ps =>
    if !s.fixedLoad f ps && (8 ≤ s.here.vqTaken || s.elsewhereWaits v ps) then .wait
    else .ok ps

/-- The accesses of a store, when it can issue. -/
def State.vStoreReady (s : State) (v : VTrig) (f : MemForm) : Ans (List Placed) :=
  (s.vAccess v f rightsW).bind fun ps =>
    let ls := winLines v v.a ps
    if (!s.allOwn ps && 8 ≤ s.here.vqTaken) || !s.sluiceAllows (memClass v) ls || s.elsewhereWaits v ps ||
        ls.any fun x => s.mergeWaits x.win (memClass v) x.line
    then .wait
    else .ok ps

/-! ### Loads -/

/-- The bytes of placed pieces that are read at once, as a row; and whether some of them are poisoned. -/
def State.readPieces (s : State) (v : VTrig) (ps : List Placed) : Nat × Option Word :=
  ps.foldl (fun acc p =>
    let at_ := fun (l : Loc) =>
      let bad := (pieceBytes v p.1).any fun b => s.bad (l.plus b.1) 1
      (acc.1 + s.peek l p.1.n % 2 ^ (8 * p.1.n) * 2 ^ (8 * p.1.at_), if bad && acc.2.isNone then some p.1.va else acc.2)
    match p.2 with
    | .loc l => at_ l
    | .versioned c o => at_ (.cistern s.cur.die c o)
    | .win _ _ => acc) (0, none)

/-- The lines that a load reads through windows, with the bytes of its enabled lanes (R182, R189). -/
def loadLines (v : VTrig) (ps : List Placed) : List LoadLine :=
  ps.foldl (fun ls p =>
    match p.2 with
    | .win w o =>
      (pieceParts v p.1).foldl (fun ls q => putPart ls w (o + q.1) q.2 (p.1.at_ + q.1) p.1.va) ls
    | _ => ls) []

/-- The pending result of a variable-latency load (R31, R157). -/
def State.loadPend (s : State) (v : VTrig) : Pend :=
  { Pend.new (if v.nw then .latch else .row v.drow) with vq := true, bytes := v.bytes, sw := s.here.sw }

/-- R412: the host lines among the pieces of a load. -/
def State.capturePieces (s : State) (ps : List Placed) : State :=
  ps.foldl (fun s p => match p.2 with
    | .loc l => s.captureHost s.cur.die l p.1.n
    | _ => s) s

/-- R183, R186: a load whose accesses are placed. -/
def State.vLoad (s : State) (v : VTrig) (f : MemForm) (ps : List Placed) : State :=
  let r := s.readPieces v ps
  let s := s.capturePieces ps
  let data := BitVec.ofNat 1024 r.1
  if s.fixedLoad f ps then s.unitResult v 6 (mergeRow 0 data v.bytes) v.bytes
  else
    let late : Option LateTrap := r.2.map fun va => { cause := causePoison, pc := v.pc, val := va, info := 0 }
    let p := { s.loadPend v with data := data, late := late }
    match loadLines v ps with
    | [] => s.loaded p
    | ls => s.remoteLoad p (memClass v) false v.pc ls

/-- The step of a trigger with the program counter at its word, as the accesses name it. -/
def State.atWord (s : State) (v : VTrig) (k : State → State) : State :=
  let s' := k (s.upMe fun x => { x with pc := v.pc })
  s'.upMe fun x => { x with pc := s.me.pc }

/-- A load trigger. -/
def State.memLoad (s : State) (f : VTrig → MemForm) : Out :=
  s.onPorts fun v =>
    match s.vLoadReady v (f v) with
    | .ok ps => s.atWord v fun s => s.vLoad v (f v) ps
    | _ => s

/-- VLD (R183). -/
def execVld (s : State) : Out := s.memLoad fun v => .row v.t64

/-- VLDG (R183). -/
def execVldg (s : State) : Out := s.memLoad fun v => .strided v.a64 v.t64

/-- VGTH (R183). -/
def execVgth (s : State) : Out := s.memLoad fun v => .indexed v.a64

/-! ### VLDT (R184) -/

/-- The blocks of a VLDT by their number in its stream: the data, or none for a poisoned one. -/
abbrev Blocks := List (Nat × Option Nat)

/-- The address of block n of a stream. -/
def blockVa (v : VTrig) (n : Nat) : Word := v.t64 + BitVec.ofNat 64 (64 * n)

/-- The lanes that a VLDT loads. -/
def loadLanes (v : VTrig) : List Nat := (List.range v.ety.lanes).filter fun l => v.mask.getLsbD l

/-- R184: the blocks that a VLDT reads, in lane order, as far as its first block tells: that block gives the FMT, and with it the
elements of each (log 32, DEDUCED). -/
def vldtBlocks (v : VTrig) (first : Option Nat) : List Nat :=
  if (loadLanes v).isEmpty then []
  else
    match first.bind fun b => blockFmt (blkFmt b) with
    | none => [0]
    | some f => (loadLanes v).foldl (fun ns l =>
      let n := (v.firstElem + l) / f.n
      if ns.contains n then ns else ns ++ [n]) [0]

/-- R184, R188: the place of a block, with its faults. -/
def State.blockPlace (s : State) (v : VTrig) (va : Word) : Ans Place :=
  (s.operand va 64 64 rightsR).bind fun pl =>
    match pl with
    | .loc l =>
      match region va with
      | .own o => (s.ownLoad va o 64).bind fun _ => .ok pl
      | _ => if s.syncWaits l || s.classWaits (memClass v) then .wait else .ok pl
    | .versioned _ _ => accessFault va.toNat rightsR
    | .win w o => if s.winOk (s.here.win w) o 64 true false false then .ok pl else accessFault va.toNat rightsR

/-- The bytes that now stand at a place, as a block. -/
def State.blockNow (s : State) (pl : Place) : Option Nat :=
  let at_ := fun (l : Loc) => if s.bad l 64 then none else some (s.peek l 64)
  match pl with
  | .loc l => at_ l
  | .versioned c o => at_ (.cistern s.cur.die c o)
  | .win w o => at_ (s.winLoc (s.here.win w) o)

/-- The places of the blocks of a stream. -/
def State.blockPlaces (s : State) (v : VTrig) (ns : List Nat) : Ans (List (Nat × Place)) :=
  Ans.faultsFirst (ns.map fun n => (s.blockPlace v (blockVa v n)).bind fun pl => .ok (n, pl))

/-- What a VLDT finds: its elements, or the trap that waits for the first reader of its row. -/
inductive BlockElems where
  | ok (f : BFmt) (vals : List (Nat × Fp))
  | poison (va : Word)
  | format (va : Word) (fmt : Nat)

/-- R184: the elements of the lanes from their blocks; every block read carries the FMT `code` of the first (log 32, DEDUCED).
A block that has not come counts as poisoned. -/
def elemsOf (v : VTrig) (bs : Blocks) (code : Nat) (f : BFmt) : List Nat → BlockElems
  | [] => .ok f []
  | l :: rest =>
    let j := v.firstElem + l
    let n := j / f.n
    match (bs.find? fun e => e.1 == n).bind (·.2) with
    | none => .poison (blockVa v n)
    | some b =>
      if blkFmt b ≠ code then .format (blockVa v n) (blkFmt b)
      else
        match elemsOf v bs code f rest with
        | .ok f vs => .ok f ((l, blkVal f b (j % f.n)) :: vs)
        | r => r

/-- R184: what the blocks of a VLDT give. -/
def unpackOf (v : VTrig) (bs : Blocks) : BlockElems :=
  if (loadLanes v).isEmpty then .ok (.int 8) []
  else
    match (bs.find? fun e => e.1 == 0).bind (·.2) with
    | none => .poison v.t64
    | some b =>
      match blockFmt (blkFmt b) with
      | none => .format v.t64 (blkFmt b)
      | some f => elemsOf v bs (blkFmt b) f (loadLanes v)

/-- The pending result of a VLDT whose blocks have all come: its row, or the trap of its first reader (R184, R188). -/
def Pend.unpacked (p : Pend) (v : VTrig) (bs : Blocks) : Pend :=
  let late := fun (c : Nat) (va info : Word) =>
    { p with answered := true, block := none, lines := []
             late := some { cause := c, pc := v.pc, val := va, info := info } }
  match unpackOf v bs with
  | .ok _ vs =>
    let lane := fun (l : Nat) => match vs.find? fun e => e.1 == l with
      | some e => v.ety.conv v.blockMode 0 e.2
      | none => 0
    { p with answered := true, block := none, lines := []
             data := rowOfLanes v.ety.w ((List.range v.ety.lanes).map lane) }
  | .poison va => late causePoison va 0
  | .format va fmt => late causeFormat va (BitVec.ofNat 64 fmt)

/-- R184, R188: a VLDT that can issue, with the places of its blocks. Which blocks it needs is foretold from its first block as it
stands (log 32, DEDUCED). -/
def State.vldtReady (s : State) (v : VTrig) : Ans (List (Nat × Place)) :=
  (s.blockPlaces v (vldtBlocks v none)).bind fun ps =>
    (s.blockPlaces v (vldtBlocks v ((ps.head?.bind fun p => s.blockNow p.2)))).bind fun ps =>
      if 8 ≤ s.here.vqTaken then .wait else .ok ps

/-- The blocks at places outside windows, read at once. -/
def State.nearBlocks (s : State) (ps : List (Nat × Place)) : Blocks :=
  (ps.filter fun p => match p.2 with
    | .win _ _ => false
    | _ => true).map fun p => (p.1, s.blockNow p.2)

/-- The blocks behind windows, a remote load of one line each. -/
def farBlocks (v : VTrig) (ps : List (Nat × Place)) : List LoadLine :=
  ps.filterMap fun p => match p.2 with
    | .win w o => some { win := w, line := o / 64, addr := blockVa v p.1, parts := [(o % 64, 64, p.1)] }
    | _ => none

/-- The host lines among the blocks of a VLDT (R412). -/
def State.captureBlocks (s : State) (ps : List (Nat × Place)) : State :=
  ps.foldl (fun s p => match p.2 with
    | .loc l => s.captureHost s.cur.die l 64
    | _ => s) s

/-- R184: a VLDT whose blocks are placed: what stands on this side of the windows is read at once, the rest as remote loads
(R339). -/
def State.startVldt (s : State) (v : VTrig) (ps : List (Nat × Place)) : State :=
  let bs := s.nearBlocks ps
  let s := s.captureBlocks ps
  match farBlocks v ps with
  | [] => s.loaded ((s.loadPend v).unpacked v bs)
  | ls => s.remoteLoad { s.loadPend v with block := some v, lines := bs } (memClass v) false v.pc ls

/-- R184: the blocks of a VLDT have come: its elements, or, when its first block names others than were foretold, a load of
these; a fault that they meet waits for the first reader of the row (log 32, DEDUCED). -/
def State.blocksCome (s : State) (id : Nat) (p : Pend) (v : VTrig) : State :=
  let first := (p.lines.find? fun e => e.1 == 0).bind (·.2)
  let more := (vldtBlocks v first).filter fun n => !p.lines.any fun e => e.1 == n
  let put := fun (s : State) (f : Pend → Pend) => s.modPend s.cur.die s.cur.core s.cur.slot id f
  let land := fun (s : State) => s.landLater s.cur.die s.cur.core s.cur.slot id .variableLoadLanding
  if more.isEmpty then land (put s fun p => p.unpacked v p.lines)
  else
    match s.blockPlaces v more with
    | .ok ps =>
      let bs := s.nearBlocks ps
      let ls := farBlocks v ps
      let s := put (s.captureBlocks ps) fun p => { p with lines := p.lines ++ bs, left := ls.length }
      if ls.isEmpty then land (put s fun p => p.unpacked v p.lines)
      else ls.foldl (fun s x => s.remoteLine id (memClass v) false v.pc x) s
    | .trap c va info =>
      land (put s fun p => { p with answered := true, late := some { cause := c, pc := v.pc, val := va, info := info } })
    | .late t => land (put s fun p => { p with answered := true, late := some t })
    | _ => s.later 1 { who := s.cur, op := .vldt }

/-- VLDT (R184): always of variable latency. With a trigger on its ports it starts; without one, the blocks of the pending result
that the step names have come. -/
def execVldt (s : State) : Out :=
  match s.cur.trig with
  | some _ =>
    s.onPorts fun v =>
      match s.vldtReady v with
      | .ok ps => s.atWord v fun s => s.startVldt v ps
      | _ => s
  | none =>
    match s.findPend s.cur.die s.cur.core s.cur.slot s.cur.id with
    | some p => match p.block with
      | some v => .next (if p.left = 0 && !p.answered then s.blocksCome s.cur.id p v else s)
      | none => .next s
    | none => .next s

/-! ### Stores -/

/-- The bytes that a store puts into the own cistern, in lane order. -/
def State.ownCells (s : State) (v : VTrig) (data : Row) (ps : List Placed) : List (Nat × Byte) :=
  ps.flatMap fun p =>
    match s.ownPiece p with
    | some o => (pieceBytes v p.1).map fun b => (o + b.1, BitVec.ofNat 8 (rowNat data b.2 1))
    | none => []

/-- R483, R310: bytes stored by a slot at a place other than its own cistern. -/
def State.storePiece (s : State) (v : VTrig) (data : Row) (p : Placed) : State :=
  let cs := (pieceBytes v p.1).map fun b => (b.1, BitVec.ofNat 8 (rowNat data b.2 1))
  match p.2 with
  | .loc (.cistern d c o) =>
    if (s.ownPiece p).isSome then s
    else
      let cs := cs.map fun b => (o + b.1, b.2)
      (s.storeCells d c s.cur.slot v.pc cs).countCells 2 d c cs
  | .loc l =>
    let s := (s.modMem l fun m u o => m.putCells u (cs.map fun b => (o + b.1, b.2))).snoop l
    if cs.any fun b => s.bad (l.plus b.1) 1 then
      s.record s.cur.die { unit := unitOfCore s.cur.core, kind := 0x04, action := 2, range := l.cellSpan cs
                           d0 := BitVec.ofNat 64 (s.cur.slot + v.pc.toNat * 4 % 2 ^ 62) }
    else s
  | _ => s

/-- The lines of a store posted through their windows, with the writes that they have become: window and sequence number. -/
def State.postLines (s : State) (cls : Nat) (ls : List WinLine) : State × List (Nat × Nat) :=
  ls.foldl (fun x l =>
    let s := State.post1 x.1 l.win cls l.line (BitVec.ofNat 512 l.data) (BitVec.ofNat 64 l.mask)
    (s, x.2 ++ ((newestEntry s.here.comb l.win cls).map fun e => [(l.win, e.seq)]).getD [])) (s, [])

/-- R183, R185, R186: a store whose accesses are placed; with the phaser of a VSTA. -/
def State.vStore (s : State) (v : VTrig) (f : MemForm) (ps : List Placed) (ph : Option Word) : State :=
  let cls := memClass v
  let own := s.ownCells v v.a ps
  let n := (ps.map fun p => (pieceBytes v p.1).length).sum
  let x := (ps.foldl (fun s p => s.storePiece v v.a p) s).postLines cls (winLines v v.a ps)
  let s := if x.1.allOwn ps then x.1 else x.1.loaded { Pend.new .none with vq := true }
  if !own.isEmpty then
    let base := match f, ps with
      | .row _, p :: _ => ((s.ownPiece p).getD 0) - p.1.at_
      | _, _ => 0
    s.addLanding
      { id := 0, due := 0, kind := .store, unit := 7, row := base, data := v.a, bytes := v.bytes, cells := own, sw := 0
        fromRec := false, cls := cls, pc := v.pc, arrival := ph.map fun p => (p, n) } 3 .cisternStorePerform
  else
    match ph with
    | some p => s.startArrival s.cur.die s.cur.core s.cur.slot p n cls x.2
    | none => s

/-- A store trigger. -/
def State.memStore (s : State) (f : VTrig → MemForm) (ph : VTrig → Option Word) : Out :=
  s.onPorts fun v =>
    match s.vStoreReady v (f v) with
    | .ok ps => s.atWord v fun s => s.vStore v (f v) ps (ph v)
    | _ => s

/-- VST (R183). -/
def execVst (s : State) : Out := s.memStore (fun v => .row v.t64) fun _ => none

/-- VSTG (R183). -/
def execVstg (s : State) : Out := s.memStore (fun v => .strided v.b64 v.t64) fun _ => none

/-- VSCT (R183). -/
def execVsct (s : State) : Out := s.memStore (fun v => .indexed v.b64) fun _ => none

/-- VSTA (R185). -/
def execVsta (s : State) : Out := s.memStore (fun v => .row v.b64) fun v => some v.t64

/-- R185: some posted write that an arrival follows has not been acknowledged. -/
def State.arrivalHeld (s : State) (a : VArrival) : Bool :=
  let k := s.here
  a.gates.any fun g =>
    (k.comb.any fun e => e.win == g.1 && e.cls == a.cls && e.seq == g.2) ||
    k.awaits.any fun x => x.pkt.win == g.1 && x.pkt.cls == a.cls && x.pkt.seq == g.2 && (match x.pkt.kind with
      | .posted => true
      | _ => false)

/-- VSTA_ARRIVAL (R185): the arrival, at the own die or as a request through a window. It is not delivered when a posted write
that it follows has ended in error (log 89, DESIGN CHOICE). -/
def execVstaArrival (s : State) : Out :=
  match s.here.arrivals.find? fun a => a.id == s.cur.id with
  | none => .next s
  | some a =>
    if s.arrivalHeld a then .next (s.later 1 { who := s.cur, op := .vstaArrival })
    else
      match region a.addr with
      | .sync o => .next (s.sendArrivalFor s.cur.die s.cur.core (o / 64) a.n (2 + 2 * a.id))
      | .window w o =>
        let p := s.packetOf s.cur.die s.cur.core w o (.arrival a.n false)
        let s := s.dropArrivals s.cur.die s.cur.core fun b => b.id == a.id
        .next (s.newId.inject { p with slot := a.slot, cls := a.cls })
      | _ => .next (s.dropArrivals s.cur.die s.cur.core fun b => b.id == a.id)

end Sys2Proof.Machine
end

