-- ==== Sys2Proof/Machine/EngineWord.lean ====
section
/-! DEFINITION. Engine words: patch words, ECMD, TPLLD, TPLRD, EFENCE and EBUSY (R86–R89, R151–R160, R188, R194, R235). -/

namespace Sys2Proof.Machine
open Sys2Proof

/-! ### The template of a word (R70, R87–R89, R152, R153) -/

/-- A template entry of an engine of the core. -/
def Core.entry (k : Core) (e : Engine) (i : Nat) : TemplateEntry := k.tmpl.get {} (e.code * 64 + i)

/-- R118: the template decode fault: engine and index, and the field select (log 34, DEDUCED). -/
def State.templateFault (s : State) (e : Engine) (i sel : Nat) : Out :=
  s.raise causeTemplate (BitVec.ofNat 64 (e.code * 256 + i)) (BitVec.ofNat 64 sel)

/-- A word on the template at its index: the wait for a load, the poison trap, the decode fault, or the amended copy (log
34, DEDUCED). -/
def State.withTemplate (s : State) (e : Engine) (i sel : Nat) (amend : Template → Option Template) (k : Template → Out) : Out :=
  let x := s.here.entry e i
  if !x.loading.isEmpty then s.hold
  else
    match x.poisoned with
    | some a => s.raise causePoison a 0
    | none =>
      match amend x.t with
      | none => s.templateFault e i sel
      | some t => k t

/-- R152: the value of a pair's register; x0 stands for none. -/
def State.pairReg (s : State) (r : BitVec 6) : Option Word := if r = 0 then none else some (s.rx r)

/-- R88: the amendment that ECMD makes. -/
def State.ecmdAmend (s : State) (e : Engine) (a b : BitVec 6) (t : Template) : Template :=
  amendPairs e t (s.pairReg a) (s.pairReg b)

/-! ### Sources of a vector word (R159) -/

/-- What a source delivers: its row, its 64-bit value, and the register-space row that a view row is. -/
structure Opnd where
  row : Row := 0
  w64 : Word := 0
  trow : Option Nat := none
  deriving DecidableEq, Repr

/-- A row as an operand. -/
def Opnd.ofRow (r : Row) (n : Option Nat) : Opnd := { row := r, w64 := BitVec.ofNat 64 (rowNat r 0 8), trow := n }

/-- The same lane value everywhere. -/
def EType.broadcast (t : EType) (c : Nat) : Row := rowOfLanes t.w (List.replicate (128 / t.w) c)

/-- R92, R159: lane l holds l. -/
def laneIndexRow (t : EType) : Row := rowOfLanes t.w ((List.range (128 / t.w)).map fun (l : Nat) => t.conv .rne 0 (fpOfInt l))

/-- R92, R159: a part of the bit-stream state in 32-bit lanes. -/
def BitStream.source (b : BitStream) (n : Nat) : Row :=
  rowOfLanes 4 ((List.range 32).map fun l =>
    if n = 0 then (vget b.win l 0).toNat % 2 ^ 32
    else if n = 1 then (vget b.win l 0).toNat / 2 ^ 32
    else vget b.cur l 0)

/-- R159: the operand of a source; a row and a latch may stand in the way. -/
def State.vOperand (s : State) (t : EType) (x : VSrc) : Ans Opnd :=
  match x with
  | .row v i =>
    (s.me.viewRow v i).bind fun n =>
      (s.here.rowAccess s.me n s.clk true).bind fun _ => .ok (Opnd.ofRow (s.here.row n) (some n))
  | .latch n => (s.here.latchRow s.me n).bind fun r => .ok (Opnd.ofRow r none)
  | .const n => .ok { row := EType.broadcast t (constLane t n), w64 := const64 n }
  | .reg r => .ok { row := EType.broadcast t ((s.rx r).toNat % 2 ^ (8 * t.w)), w64 := s.rx r }
  | .lane => .ok (Opnd.ofRow (laneIndexRow t) none)
  | .stream n => .ok (Opnd.ofRow (s.me.bs.source n) none)

/-- The 64-bit value of a source that can be seen in this clk without any wait (R70, R160). -/
def State.vSeen (s : State) (t : EType) (x : VSrc) : Option Word :=
  let k := s.here
  match x with
  | .row v i =>
    match s.me.viewRow v i with
    | .ok n =>
      let a := k.part.rowByte n
      if k.rowPending n || k.tileBusy a (a + 128) || k.cistern.poisoned unitSram a 8 || s.me.lateRow.any fun e => e.1 == n then none
      else some (BitVec.ofNat 64 (rowNat (k.row n) 0 8))
    | _ => none
  | .latch n => (vget k.latch n none).map fun r => BitVec.ofNat 64 (rowNat r 0 8)
  | .reg r => if s.me.regHazard [r] [] s.clk = .clear then some (s.rx r) else none
  | x =>
    match s.vOperand t x with
    | .ok o => some o.w64
    | _ => none

/-- The source that supplies a port of a unit: the last move to it (R158). -/
def VWord.port (w : VWord) (unit port : Nat) : Option VSrc :=
  w.moves.foldl (fun acc m =>
    match m with
    | .operand src u p => if u = unit && p = port then some src else acc
    | _ => acc) none

/-- R160: the place of RM in the control value of an operation, if it reads one. -/
def rmAt (unit op : Nat) : Option Nat :=
  if unit = 4 && op ≤ 3 then some 0 else if unit = 7 && op = 6 then some 4 else none

/-- R160: some trigger of the word has a reserved RM in a control value that can be seen. -/
def State.rmFault (s : State) (w : VWord) : Bool :=
  w.moves.any fun m =>
    match m with
    | .trigger _ u op _ _ _ =>
      match rmAt u op with
      | some lo =>
        match (w.port u 2).bind (s.vSeen w.ety) with
        | some c => 4 < c.toNat / 2 ^ lo % 8
        | none => false
      | none => false
    | _ => false

/-! ### The faults that come before any wait (R70) -/

/-- R89–R95, R160, R194: an amended template breaks a decode check. -/
def State.undecodable (s : State) (e : Engine) (t : Template) : Bool :=
  match e with
  | .vec =>
    match decodeVec t with
    | some w => s.rmFault w
    | none => true
  | _ =>
    match decodeTemplate e t with
    | .ok _ => false
    | .error _ => true

/-- R70: the register can be read in this clk. -/
def State.regSeen (s : State) (r : BitVec 6) : Bool := s.me.regHazard [r] [] s.clk = .clear

/-- R70: whether an ECMD fails its decode check whatever values its registers will hold (log 35, DEDUCED). A register that
cannot be read yet stands for a value that no limit of its pair refuses: 0, and for NMIN and NMAX of an SSET 2. -/
def State.ecmdUndecodable (s : State) (e : Engine) (a b : BitVec 6) (t : Template) : Bool :=
  let pair := fun (r : BitVec 6) (v : Word) => if r = 0 then none else some (if s.regSeen r then s.rx r else v)
  let t := amendPairs e t (pair a 0) (pair b (if e == .smp && templateOp t == 6 then 0x2000002 else 0))
  match e with
  | .vec =>
    match decodeVec t with
    | some w => s.regSeen a && s.rmFault w
    | none => true
  | _ => s.undecodable e t

/-- R70: the word raises the poison trap of its template or the template decode fault, which no wait precedes but that
for a load of the template (log 35, DEDUCED). -/
def State.templateFaulted (s : State) (i : Instr) : Bool :=
  let patch := fun (e : Engine) (n sel val : Nat) =>
    let x := s.here.entry e n
    x.loading.isEmpty && (x.poisoned.isSome || (match amendPatch e x.t sel val with
      | some t => s.undecodable e t
      | none => true))
  match i with
  | .vx n f v => patch .vec n.toNat f.toNat v.toNat
  | .mx n f v => patch .mat n.toNat f.toNat v.toNat
  | .cx n f v => patch .cpy n.toNat f.toNat v.toNat
  | .sx n f v => patch .smp n.toNat f.toNat v.toNat
  | .ecmd e a b n =>
    let x := s.here.entry e n.toNat
    x.loading.isEmpty && (x.poisoned.isSome || s.ecmdUndecodable e a b x.t)
  | _ => false

/-! ### Execution of a vector word (R156–R160, R188) -/

/-- The registers that a vector word broadcasts. -/
def VWord.regs (w : VWord) : List (BitVec 6) :=
  w.moves.filterMap fun m =>
    match m with
    | .operand (.reg r) _ _ => some r
    | .trigger (.reg r) _ _ _ _ _ => some r
    | _ => none

/-- R94: the operation of a unit. -/
def vCtor (unit op : Nat) : Instr :=
  let alu : List Instr := [.vadd, .vsub, .vmin, .vmax, .vabs, .vneg, .vand, .vor, .vxor, .vshl, .vshr, .vshra, .vceq, .vcne,
    .vclt, .vcle, .vsel, .vmov, .vclz, .vpopc]
  let t : List Instr := match unit with
    | 0 => alu
    | 1 => alu
    | 2 => [.vmul, .vfma, .vfms, .vfnma, .vmulh, .vdot2]
    | 3 => [.vrcp, .vrsq, .vsqrt, .vexp2, .vlog2, .vsin, .vcos, .vtanh, .vsigm, .verf]
    | 4 => [.vcvt, .vqnt, .vdqnt, .vsrnd, .vnfc]
    | 5 => [.vbsi, .vbsr, .vbsq]
    | 6 => [.vperm, .vshuf, .vbcst, .vreda, .vredm, .vscan, .vcmpr]
    | _ => [.vld, .vst, .vldg, .vstg, .vgth, .vsct, .vldt, .vsta]
  (t[op]?).getD .vmov

/-- Operations without a destination: VBSI and the stores. -/
def noDest (unit op : Nat) : Bool := (unit == 5 && op == 0) || (unit == 7 && (op == 1 || op == 3 || op == 5 || op == 7))

/-- R91, R161: the lane mask of a word. -/
def State.vMaskRow (s : State) (w : VWord) : Ans (BitVec 128) :=
  if w.mask = 0 then .ok (BitVec.allOnes 128)
  else (s.vOperand w.ety (.row 7 (w.mask - 1))).bind fun o => .ok (BitVec.ofNat 128 o.row.toNat)

/-- The source of a move. -/
def VMove.src : VMove → VSrc
  | .operand x _ _ => x
  | .trigger x _ _ _ _ _ => x

/-- The operand that a port of a unit has from the moves of the word; 0 when no move supplies it (R158). -/
def portOf (xs : List (VMove × Opnd)) (unit port : Nat) : Opnd :=
  xs.foldl (fun acc x =>
    match x.1 with
    | .operand _ u p => if u = unit && p = port then x.2 else acc
    | _ => acc) {}

/-- The destination of a trigger: its row and element type, once it may be written (R23, R31, R32, R188). -/
def State.vDest (s : State) (w : VWord) (unit op view row : Nat) (nw : Bool) : Ans (Nat × EType) :=
  if nw || noDest unit op then .ok (0, w.ety)
  else
    (s.me.viewRow view row).bind fun n =>
      (s.here.rowAccess s.me n s.clk false).bind fun _ => .ok (n, s.me.viewType view)

/-- A trigger with its ports, and its operation. -/
def State.vTrigger (s : State) (w : VWord) (mask : BitVec 128) (xs : List (VMove × Opnd)) (x : VMove × Opnd) :
    Ans (Option (VTrig × Nat)) :=
  match x.1 with
  | .operand _ _ _ => .ok none
  | .trigger _ u op view row nw =>
    (s.vDest w u op view row nw).bind fun d =>
      let a := portOf xs u 0
      let b := portOf xs u 1
      let c := portOf xs u 2
      .ok (some ({ pc := s.me.pc, unit := u, ety := w.ety, mask := mask, a := a.row, b := b.row, c := c.row, t := x.2.row
                   a64 := a.w64, b64 := b.w64, c64 := c.w64, t64 := x.2.w64, trow := x.2.trow, drow := d.1, dety := d.2
                   nw := nw }, op))

/-- Reads of register-space rows that a bsr operation makes beside its operand (R176, R177). -/
def State.bsrReady (s : State) (v : VTrig) (op : Nat) : Ans Unit :=
  let k := s.here
  let rows := match op with
    | 0 => (v.trow.map fun r => [r + 1]).getD []
    | 1 => ((List.range 32).filter (s.me.bs.refills v)).map fun l => vget s.me.bs.ref l 0
    | _ => []
  (Ans.all ((rows.filter fun r => decide (r < k.part.rows)).map fun r => k.rowAccess s.me r s.clk true)).bind fun _ => .ok ()

/-- R170–R172: the format fault of a reserved FMT (log 33, DESIGN CHOICE). -/
def State.cvtReady (s : State) (v : VTrig) (op : Nat) : Ans Unit :=
  let bad := fun (val fmt : Nat) => (.trap causeFormat (BitVec.ofNat 64 val) (BitVec.ofNat 64 fmt) : Ans Unit)
  let half := 64 * v.ctl 8 1
  let check := fun (val fmt : Nat) => if (blockFmt fmt).isNone then bad val fmt else .ok ()
  match op with
  | 1 => check (if v.nw then 0 else s.here.part.rowByte v.drow + half) (v.ctl 3 5)
  | 2 => check ((v.trow.map fun r => s.here.part.rowByte r + half).getD 0) (blkFmt v.block)
  | 3 => check 0 (v.ctl 3 5)
  | _ => .ok ()

/-- R188: what a mem operation meets; and whether it takes one of the landings of R29. -/
def State.memReady (s : State) (v : VTrig) (op : Nat) : Ans Nat :=
  let load := fun (f : MemForm) => (s.vLoadReady v f).bind fun ps => .ok (if s.fixedLoad f ps then 1 else 0)
  let store := fun (f : MemForm) => (s.vStoreReady v f).bind fun ps => .ok (if (s.ownCells v v.a ps).isEmpty then 0 else 1)
  match op with
  | 0 => load (.row v.t64)
  | 1 => store (.row v.t64)
  | 2 => load (.strided v.a64 v.t64)
  | 3 => store (.strided v.b64 v.t64)
  | 4 => load (.indexed v.a64)
  | 5 => store (.indexed v.b64)
  | 6 => (s.vldtReady v).bind fun _ => .ok 0
  | _ =>
    match store (.row v.b64) with
    | .wait => (s.vstaPhaser v).bind fun _ => .wait
    | r => r.bind fun n => (s.vstaPhaser v).bind fun _ => .ok n

/-- The last checks of a trigger, and the landings that it takes. -/
def State.vReady (s : State) (x : VTrig × Nat) : Ans Nat :=
  match x.1.unit with
  | 4 => (s.cvtReady x.1 x.2).bind fun _ => .ok 1
  | 5 => (s.bsrReady x.1 x.2).bind fun _ => .ok (if x.2 = 0 then 0 else 1)
  | 7 => s.memReady x.1 x.2
  | _ => .ok 1

/-- R156: the triggers of a vector word with their ports, in slot order, and the landings that they take. -/
def State.vTriggers (s : State) (w : VWord) : Ans (List (VTrig × Nat) × Nat) :=
  (s.vMaskRow w).bind fun mask =>
    (Ans.all (w.moves.map fun m => s.vOperand w.ety m.src)).bind fun os =>
      let xs := w.moves.zip os
      (Ans.all (xs.map (s.vTrigger w mask xs))).bind fun ts =>
        let ts := ts.filterMap id
        (Ans.all (ts.map s.vReady)).bind fun ns => .ok (ts, ns.sum)

/-- R412: the seeds of stochastic roundings that the triggers of a word take from registers. -/
def State.captureSeeds (s : State) (w : VWord) (ts : List (VTrig × Nat)) : State :=
  ts.foldl (fun s x =>
    match rmAt x.1.unit x.2, w.port x.1.unit 2 with
    | some lo, some (.reg _) =>
      if x.1.c64.toNat / 2 ^ lo % 8 = 4 then s.captureInput s.cur.die 5 s.cur.slot x.1.c64.toNat else s
    | _, _ => s) s

/-- A vector word whose template has passed its checks: what holds it back, its faults, and then its triggers, which
start in this clk (R29, R156). Where a landing record leaves no room for them, it starts on its way first (log 83, DEDUCED). -/
def State.vectorWord (s : State) (w : VWord) : Out :=
  match s.me.regHazard w.regs [] s.clk with
  | .blocked => s.hold
  | .late t => .next (s.lateTrap t)
  | .held => s.stay
  | .clear =>
    (s.vTriggers w).run s fun r =>
      if 8 < s.me.outstanding + r.2 && r.2 != 0 then
        if s.me.lands.isEmpty then s.launchRecord.stay else s.stay
      else
        let s := ((s.captureSeeds w r.1).becomeCall s.cur.die s.cur.core s.cur.slot).next4
        .next (s.first (r.1.map fun x => { who := { s.cur with trig := some x.1 }, op := vCtor x.1.unit x.2 }))

/-! ### Commands of the other engines (R89, R194, R235, R236) -/

/-- R235: the cistern byte of a copy's descriptor; none for the access fault (log 36, DEDUCED). -/
def Core.descAt (k : Core) (dtile doff : Nat) : Option Nat :=
  let t := k.tile dtile
  let o := t.lo + doff * 64
  if !t.acc && t.covers o 64 then some o else none

/-- The DTILE, DOFF, XSEL and XADDR of a copy, with whether it is a CPYF. -/
def copyHead (i : Instr) : Option (Nat × Nat × Nat × Word × Bool) :=
  match i with
  | .cpy _ t o x a => some (t.toNat, o.toNat, x.toNat, a, false)
  | .cpym _ t o x a => some (t.toNat, o.toNat, x.toNat, a, false)
  | .cpyf _ t o x a => some (t.toNat, o.toNat, x.toNat, a, true)
  | .cpyt _ t o x a => some (t.toNat, o.toNat, x.toNat, a, false)
  | .cpyc _ t o x a => some (t.toNat, o.toNat, x.toNat, a, false)
  | .cpyg _ t o x a => some (t.toNat, o.toNat, x.toNat, a, false)
  | .cpyr _ t o x a => some (t.toNat, o.toNat, x.toNat, a, false)
  | _ => none

/-- R235: the descriptor as XSEL leaves it. -/
def replaceEnd (d : BitVec 512) (xsel : Nat) (a : Word) : BitVec 512 :=
  let put := fun (lo : Nat) => BitVec.ofNat 512 (d.toNat - d.toNat / 2 ^ lo % 2 ^ 64 * 2 ^ lo + a.toNat * 2 ^ lo)
  if xsel = 1 then put 0 else if xsel = 2 then put 64 else d

/-- R236: the tile conditions of a copy beside those of its TTILE as a written tile. -/
def Core.copyAllows (k : Core) (dtile : Nat) (d : BitVec 512) : Bool :=
  let t := k.tile dtile
  let w := k.tile (descTtile d)
  (!t.holders.isEmpty || t.state == .ready) && (!descTt d || !w.holders.isEmpty || w.size != 0)

/-- R235, R243: a copy with its descriptor snapshot and its follow-on; what the read of the descriptor meets (log 36, DEDUCED). The
snapshot is read, and may trap, before the tile conditions of R236 can hold the word back (log 97, DESIGN CHOICE); a follow-on
template that R153 has marked poisoned is copied as it is, without a trap (log 96, DESIGN CHOICE). -/
def State.copyCmd (s : State) (i : Instr) (c : Cmd) : Ans Cmd :=
  match copyHead i with
  | none => .ok c
  | some (dt, off, xsel, a, follows) =>
    match s.here.descAt dt off with
    | none =>
      .trap causeAccess (BitVec.ofNat 64 (0xFFFF000000000000 + (s.here.tile dt).lo + off * 64)) 0
    | some o =>
      (s.ownLoad (BitVec.ofNat 64 (0xFFFF000000000000 + o)) o 64).bind fun b =>
        let d := replaceEnd (BitVec.ofNat 512 b) xsel a
        let e := s.here.entry .mat (descXarg d % 64)
        if !s.here.copyAllows dt d || (follows && !e.loading.isEmpty) then .wait
        else .ok { c with desc := d, follow := if follows then e.t else 0 }

/-- A command of the slot that the step concerns, before it has a number. -/
def State.newCmd (s : State) (t : Template) (idx : Nat) : Cmd :=
  { id := 0, t := t, idx := idx, slot := s.cur.slot, at_ := s.clk, priv := s.me.priv
    token := ((s.taskOf s.cur.die s.cur.core s.cur.slot).map (·.ctk)).getD 0 }

/-- R395: a command of a work node as a trace entry. -/
def State.noteTemplate (s : State) (e : Engine) (t : Template) (idx : Nat) : State :=
  s.noteWork s.cur.die s.cur.core s.cur.slot fun node =>
    { kind := .template, a := t, b := BitVec.ofNat 64 idx, aux := e.code, node := node }

/-- R412: the seed that a command takes from the registers of an ECMD. -/
def seedTaken (i : Instr) (a b : Option Word) : Option Word :=
  match i with
  | .sseed _ _ => a
  | .mdrn _ _ _ _ _ _ _ _ rm _ _ _ _ _ _ => if rm = 4 then b else none
  | _ => none

/-- R89, R217: an amended template of the matrix, copy or sampling engine enters its queue; the slot of an MWAIT
waits for it. The registers are those of an ECMD. -/
def State.engineWord (s : State) (e : Engine) (idx sel : Nat) (a b : Option Word) (t : Template) : Out :=
  match decodeTemplate e t with
  | .error _ => s.templateFault e idx sel
  | .ok i =>
    (s.copyCmd i (s.newCmd t idx)).run s fun c =>
      match s.issueCmd s.cur.die s.cur.core e i c with
      | none => s.hold
      | some s' =>
        let s' := s'.noteTemplate e t idx
        let s' := match seedTaken i a b with
          | some v => s'.captureInput s.cur.die 5 s.cur.slot v.toNat
          | none => s'
        match i with
        | .mwait _ => .next (s'.block (.answer s.ids))
        | _ => .next s'.next4

/-- An amended template of any engine (log 34, DEDUCED). -/
def State.issueTemplate (s : State) (e : Engine) (idx sel : Nat) (a b : Option Word) (t : Template) : Out :=
  match e with
  | .vec =>
    match decodeVec t with
    | none => s.templateFault .vec idx sel
    | some w => if s.rmFault w then s.templateFault .vec idx 0x3F else s.vectorWord w
  | e => s.engineWord e idx sel a b t

/-- A patch word (R87). -/
def State.patchWord (s : State) (e : Engine) (idx sel val : Nat) : Out :=
  s.withTemplate e idx sel (fun t => amendPatch e t sel val) (s.issueTemplate e idx sel none none)

/-- VX (R86, R87, R156). -/
def execVx (idx sel : BitVec 6) (val : BitVec 16) (s : State) : Out := s.patchWord .vec idx.toNat sel.toNat val.toNat

/-- MX (R86, R87, R194). -/
def execMx (idx sel : BitVec 6) (val : BitVec 16) (s : State) : Out := s.patchWord .mat idx.toNat sel.toNat val.toNat

/-- CX (R86, R87, R235). -/
def execCx (idx sel : BitVec 6) (val : BitVec 16) (s : State) : Out := s.patchWord .cpy idx.toNat sel.toNat val.toNat

/-- SX (R86, R87, R302). -/
def execSx (idx sel : BitVec 6) (val : BitVec 16) (s : State) : Out := s.patchWord .smp idx.toNat sel.toNat val.toNat

/-- ECMD (R152). -/
def execEcmd (e : Engine) (a b i : BitVec 6) (s : State) : Out :=
  if s.templateFaulted (.ecmd e a b i) then
    s.withTemplate e i.toNat 0x3F (fun _ => none) fun _ => .next s
  else
    match s.me.regHazard [a, b] [] s.clk with
    | .blocked => s.hold
    | .late t => .next (s.lateTrap t)
    | .held => s.stay
    | .clear => s.withTemplate e i.toNat 0x3F (fun t => some (s.ecmdAmend e a b t)) (s.issueTemplate e i.toNat 0x3F (s.pairReg a) (s.pairReg b))

/-! ### TPLLD, TPLRD, EFENCE, EBUSY (R153–R155) -/

/-- The 16 bytes of a TPLLD as they are read at issue (log 25, DEDUCED): with the mark of poison. -/
def State.templateBytes (s : State) (va : Word) : Ans (Template × Bool) :=
  (s.operand va 16 16 rightsR).bind fun pl =>
    let at_ := fun (l : Loc) => (.ok (BitVec.ofNat 128 (s.peek l 16), s.bad l 16) : Ans (Template × Bool))
    match pl with
    | .loc l =>
      match region va with
      | .own o => (s.ownAccess o 16 rightsR).bind fun _ => at_ l
      | _ => if s.syncWaits l || s.classWaits 0 then .wait else at_ l
    | .versioned _ _ => accessFault va.toNat rightsR
    | .win w o => (s.farRead va w o 16).bind fun b => .ok (BitVec.ofNat 128 b.1, b.2)

/-- TPLLD (R153). -/
def execTplld (e : Engine) (a i : BitVec 6) (s : State) : Out :=
  let va := s.rx a
  (s.templateBytes va).run s fun b =>
    let s := s.captureRead va 16 16
    let n := e.code * 64 + i.toNat
    let x := s.here.tmpl.get {} n
    let x := { x with loading := x.loading ++ [(b.1, if b.2 then some va else none)] }
    let s := s.upHere fun k => { k with tmpl := k.tmpl.set n x }
    .next ((s.later (1 + Config.latency s.fresh) { who := { s.cur with n := n }, op := .templateLoadLands }).stamp).next4

/-- TPLRD (R154). -/
def execTplrd (e : Engine) (a i : BitVec 6) (s : State) : Out :=
  let x := s.here.entry e i.toNat
  if !x.loading.isEmpty then s.hold
  else
    let va := s.rx a
    (s.operand va 16 16 rightsW).run s fun pl => s.storeAt pl va 16 x.t.toNat 0

/-- The queue of an engine holds an entry (R155, R157). -/
def Core.queueUsed (k : Core) (e : Engine) : Bool :=
  match e with
  | .vec => k.vqTaken != 0
  | e => !(k.queued e).isEmpty

/-- A command of an engine is executing (R155, R232). -/
def Core.executing (k : Core) (e : Engine) : Bool :=
  match e with
  | .vec => false
  | .mat => !k.mat.running.isEmpty
  | .cpy => !k.cpy.flight.isEmpty
  | .smp => k.smp.running.isSome

/-- EFENCE (R155). -/
def execEfence (e : Engine) (s : State) : Out := if s.here.queueUsed e then s.hold else .next s.next4

/-- EBUSY (R155). -/
def execEbusy (e : Engine) (a : BitVec 6) (s : State) : Out :=
  s.result a (if s.here.queueUsed e || s.here.executing e then 1 else 0) 1

end Sys2Proof.Machine
end

