-- ==== Sys2Proof/Machine/Matrix.lean ====
section
/-! DEFINITION. The matrix engine: when its commands start, what each does, and their end (R191–R219). -/

namespace Sys2Proof.Machine
open Sys2Proof

/-! ### Faults (R219) -/

/-- A fault of a command: its code, and the tile, row and column that it names; whether it touched that tile, and the place and the
bytes of the range involved, the whole tile where it is no part of it (R219). -/
structure MatFault where
  code : Nat
  tile : Nat
  row : Nat := 0
  col : Nat := 0
  touched : Bool := true
  span : Option (Loc × Nat) := none
  deriving DecidableEq, Repr

/-- A range of the own cistern. -/
def ownSpan (o n : Nat) : Option (Loc × Nat) := some (.cistern 0 0 o, n)

/-- A condition of a command. -/
def mustBe (c : Bool) (code tile : Nat) : Except MatFault Unit := if c then .ok () else .error { code := code, tile := tile }

/-- A condition of a command on a range of its cistern. -/
def mustHold (c : Bool) (code tile o n : Nat) : Except MatFault Unit :=
  if c then .ok () else .error { code := code, tile := tile, span := ownSpan o n }

/-- R219: poison in n bytes of the own cistern. -/
def poisonAt (tile o n : Nat) : MatFault := { code := 0x42, tile := tile, span := ownSpan o n }

/-- R219, R488: the range that a fault names. -/
def MatFault.range (f : MatFault) (k : Core) : Option (Nat × Nat) :=
  match f.span with
  | some (l, n) => l.span n
  | none =>
    let t := k.tile f.tile
    if f.touched && t.size != 0 then (Loc.cistern 0 0 t.lo).span t.bytes else none

/-- The checks of a list in order. -/
def allOf : List (Except MatFault Unit) → Except MatFault Unit
  | [] => .ok ()
  | .ok _ :: rest => allOf rest
  | .error f :: _ => .error f

/-- R219: the opcode of a template and its index, as MSTAT reports a fault. -/
def faultInfo (x : Cmd) (f : MatFault) : Word :=
  BitVec.ofNat 64 (f.tile % 256 + f.row % 1024 * 2 ^ 8 + f.col % 32 * 2 ^ 18 + x.idx % 64 * 2 ^ 23 + templateOp x.t * 2 ^ 32)

/-- The slot that waits for a command goes on (R217). -/
def State.releaseWaiter (s : State) (d c : Nat) (x : Cmd) : State :=
  s.modSlot d c x.slot fun y => if y.wait = .answer x.id then y.proceed else y

/-- The lanes of the engine (R196). -/
inductive Lane where
  | load | stream | barrier
  deriving DecidableEq, Repr

/-- R196: the lane of an opcode. -/
def lanesOf (op : Nat) : Lane :=
  if op = 1 ∨ op = 6 then .load else if op ∈ [3, 4, 5, 8, 9] then .stream else .barrier

/-- The number of clk that a lane is busy is cut short when its command stops (log 30, DEDUCED). -/
def Matrix.stop (m : Matrix) (id clk : Nat) : Matrix :=
  match m.running.find? fun r => r.cmd.id == id with
  | none => m
  | some r =>
    let l := lanesOf (templateOp r.cmd.t)
    { m with running := m.running.filter fun q => q.cmd.id != id
             loadFree := if l = .load then min m.loadFree clk else m.loadFree
             streamFree := if l = .stream then min m.streamFree clk else m.streamFree }

/-- R219: a matrix command ends in a fault (log 30, DEDUCED) (log 46, DEDUCED). -/
def State.matFault (s : State) (d c : Nat) (x : Cmd) (f : MatFault) : State :=
  let h := cphOf x.t
  let reached := h != 0 && s.handleOk d c h
  let isLoad := lanesOf (templateOp x.t) = .load
  let range := f.range (s.core d c)
  let tiles := if f.touched then [f.tile] else []
  let s := s.modCore d c fun k =>
    let k := k.endCmd x.id s.clk true
    let m := k.mat.stop x.id s.clk
    { k with health := if f.code = 0x46 then k.health &&& 0b1101 else k.health, mat := { m with
        completed := (m.completed + 1) % 2 ^ 64
        lastFault := f.code
        lastInfo := faultInfo x f
        shadow := if isLoad then { m.shadow with valid := false, undef := some s.fresh } else m.shadow } }
  let s := if isLoad then s.stamp else s
  let s := if reached then s.sendError d h f.code else s
  let s := s.releaseWaiter d c x
  if f.code = 0x46 then
    s.record d { unit := unitOfCore c, kind := 0x21, action := if reached then 4 else 0
                 asid := (s.core d c).ctx.asid.toNat, tiles := tiles, range := range, tcore := c
                 d0 := BitVec.ofNat 64 f.row, d1 := BitVec.ofNat 64 f.col }
  else s.commandRecord d c f.code x tiles reached range none

/-! ### Starting (R196, R202, R216–R218) -/

/-- R196, R202, R216–R218: the lane of a command, or its own condition, lets it start. -/
def Matrix.laneReady (m : Matrix) (op clk : Nat) : Bool :=
  match lanesOf op with
  | .load => m.loadFree ≤ clk
  | .stream => m.streamFree ≤ clk
  | .barrier =>
    if op = 2 then m.loadFree ≤ clk && m.running.all fun r => templateOp r.cmd.t != 3 || r.laneFree ≤ clk
    else m.running.isEmpty

/-- R196, R228, R230: the command at the head of the queue starts in this clk (log 30, DEDUCED). -/
def Core.matStarts (k : Core) (clk : Nat) : Option (Cmd × Instr) :=
  match k.mat.queue with
  | [] => none
  | x :: _ =>
    match decodeTemplate .mat x.t with
    | .error _ => none
    | .ok i =>
      if x.at_ < clk && !k.closed && k.mat.laneReady (templateOp x.t) clk && !k.heldBack x.id clk then some (x, i) else none

/-- R219: the tile checks of a command: kind (none for any), size, and place in its partition. -/
def Core.tileFits (k : Core) (n : Nat) (acc : Option Bool) : Except MatFault Unit :=
  let t := k.tile n
  mustBe (t.size != 0 && (acc.map (· == t.acc)).getD true && k.part.admits t) 0x41 n

/-- R219: n bytes at o lie in a tile. -/
def Core.inTile (k : Core) (n o len : Nat) : Except MatFault Unit := mustHold ((k.tile n).covers o len) 0x41 n o len

/-- What a command does, for the parts of it that are common to all: its size in rows, panels or clk, those of one
micro-operation (R220), the clk of lane occupancy of each, the clk from the freeing of the lane to completion, its
start conditions in order, the tile whose final count it invalidates (R308), and a micro-operation from unit `pos` on
for n units, which gives the bytes written and the fault met. -/
structure MatMeaning where
  units : Nat
  per : Nat := 64
  rate : Nat := 1
  tail : Nat := 0
  check : Core → Except MatFault Unit
  voids : Option Nat := none
  /-- the sample count that it notes at its first start -/
  note : Core → Nat := fun _ => 0
  op : State → Cmd → Nat → State × Nat × Option MatFault

/-- R308: the valid entry of a tile becomes invalid (log 47, DEDUCED). -/
def Sampling.voidCount (m : Sampling) (tile : Nat) : Sampling :=
  { m with fcnt := m.fcnt.map fun e => if e.1 && e.2.1 == tile then (false, 0, 0) else e }

/-- A run of a core changed. -/
def State.modMatRun (s : State) (d c id : Nat) (f : Run → Run) : State :=
  s.modCore d c fun k =>
    { k with mat := { k.mat with running := k.mat.running.map fun r => if r.cmd.id = id then f r else r } }

/-- One micro-operation of a running command (R220) (log 11, DEDUCED). -/
def State.matOp (s : State) (i : Instr) (m : MatMeaning) (r : Run) : State :=
  let d := s.cur.die
  let c := s.cur.core
  let x := r.cmd
  let n := min m.per (m.units - x.pos)
  match m.op s x n with
  | (s, bytes, none) =>
    let s := s.modMatRun d c x.id fun r =>
      { r with cmd := { r.cmd with pos := x.pos + n }, bytes := r.bytes + bytes
               opEnd := if x.pos + n = m.units then r.done else s.clk + n * m.rate + m.tail }
    if x.pos + n < m.units then s.later (n * m.rate) { who := s.cur, op := i } else s
  | (s, _, some f) => s.matFault d c x f

/-- R198: the clk in which the last of the running commands of a lane completes: those of one lane complete in queue order. -/
def Matrix.laneDone (m : Matrix) (l : Lane) : Nat :=
  m.running.foldl (fun n r => if lanesOf (templateOp r.cmd.t) = l then max n r.done else n) 0

/-- R219: the handle of a command lies outside the grant (R440): a fault of a range that no tile holds. -/
def handleFault (u : Uses) (d h : Nat) : MatFault :=
  { code := 0x41, tile := ((u.writes ++ u.accs ++ u.reads).head?).getD 0, touched := false, span := some (.sync d (h * 64), 64) }

/-- R196, R219: a command leaves the queue and starts. -/
def State.matStart (s : State) (i : Instr) (m : MatMeaning) (x : Cmd) : State :=
  let d := s.cur.die
  let c := s.cur.core
  let k := s.core d c
  let x := if x.pos = 0 then { x with count := m.note k } else x
  let busy := (m.units - x.pos) * m.rate
  let lane := lanesOf (templateOp x.t)
  let r : Run := { cmd := x, start := s.clk, laneFree := s.clk + busy, bytes := x.bytes
                   done := max (s.clk + busy + m.tail) (k.mat.laneDone lane) }
  let s := s.modCore d c fun k =>
    { k with
      mat := { k.mat with
        queue := k.mat.queue.filter fun y => y.id != x.id
        running := k.mat.running ++ [r]
        loadFree := if lane = .load then r.laneFree else k.mat.loadFree
        streamFree := if lane = .stream then r.laneFree else k.mat.streamFree }
      smp := match m.voids with
        | some t => k.smp.voidCount t
        | none => k.smp }
  let u := k.matrixUses i
  let empty := (u.reads ++ u.accs).find? fun t => (k.tile t).leftEmpty
  let first : Except MatFault Unit := match empty with
    | some t => .error { code := 0x47, tile := t }
    | none => if s.handleOk d c (cphOf x.t) then .ok () else .error (handleFault u d (cphOf x.t))
  match allOf [first, if x.pos = 0 then m.check k else .ok ()] with
  | .error f => s.matFault d c x f
  | .ok _ =>
    let s := s.matOp i m r
    if (s.core d c).mat.running.any fun q => q.cmd.id == x.id then
      let s := if r.laneFree < r.done then s.later busy { who := { s.cur with n := 1 }, op := .matrixCommandComplete } else s
      s.later (r.done - s.clk) { who := { s.cur with n := 0 }, op := .matrixCommandComplete }
    else s

/-- A step of a matrix command: its start, or its next micro-operation; no step once it has ended or was stopped. -/
def State.matStep (s : State) (i : Instr) (m : MatMeaning) : Out :=
  let k := s.core s.cur.die s.cur.core
  match k.mat.running.find? fun r => r.cmd.id == s.cur.id with
  | some r => if k.closed then .next s else .next (s.matOp i m r)
  | none =>
    match k.matStarts s.clk with
    | some (x, _) => if x.id = s.cur.id then .next (s.matStart i m x) else .next s
    | none => .next s

/-- MATRIX_COMMAND_COMPLETE (R198, R229): the read ranges when the lane frees (n = 1); then the end of the command. -/
def execMatrixCommandComplete (s : State) : Out :=
  let d := s.cur.die
  let c := s.cur.core
  match (s.core d c).mat.running.find? fun r => r.cmd.id == s.cur.id with
  | none => .next s
  | some r =>
    if s.cur.n = 1 then .next (if r.laneFree ≤ s.clk then s.modCore d c fun k => k.freeEntries r.cmd.id s.clk false else s)
    else if r.done ≤ s.clk then
      let s := s.modCore d c fun k =>
        let k := k.endCmd r.cmd.id s.clk false
        { k with mat := { k.mat with running := k.mat.running.filter fun q => q.cmd.id != r.cmd.id
                                     completed := (k.mat.completed + 1) % 2 ^ 64 } }
      .next ((s.sendArrival d (cphOf r.cmd.t) r.bytes).releaseWaiter d c r.cmd)
    else .next s

/-! ### What the commands read and write -/

/-- Bytes written by an engine; counted by the norm tracker where R310 says so. -/
def State.enginePut (s : State) (d c o n v : Nat) (counted : Bool) : State :=
  s.modCore d c fun k =>
    let k := { k with cistern := (k.cistern.writeNat o n v).clean unitSram o n }
    if counted then k.count 0 o (o + n) fun _ => true else k

/-- The 32 FP32 codes of a raw row of 128 bytes. -/
def Core.f32Row (k : Core) (o : Nat) : List Nat :=
  let v := k.cistern.readNat o 128
  (List.range 32).map fun j => v / 2 ^ (32 * j) % 2 ^ 32

/-- R56, R58, R59: blocks b to b + n − 1 of a stream of format f as exact values. -/
def Core.streamBlocks (k : Core) (base tile code : Nat) (f : BFmt) (b : Nat) : Nat → Except MatFault (List Fp)
  | 0 => .ok []
  | n + 1 =>
    let o := base + 64 * b
    if k.cistern.poisoned unitSram o 64 then .error (poisonAt tile o 64)
    else
      let blk := k.cistern.readNat o 64
      if blkFmt blk ≠ code then .error { code := 0x43, tile := tile, span := ownSpan o 64 }
      else
        match k.streamBlocks base tile code f (b + 1) n with
        | .ok xs => .ok ((List.range f.n).map (blkVal f blk) ++ xs)
        | e => e

/-- R56: elements lo to lo + n − 1 of a stream. -/
def Core.expand (k : Core) (base tile code : Nat) (f : BFmt) (lo n : Nat) : Except MatFault (List Fp) :=
  let b := lo / f.n
  match k.streamBlocks base tile code f b ((lo + n + f.n - 1) / f.n - b) with
  | .ok xs => .ok ((xs.drop (lo - b * f.n)).take n)
  | e => e

/-- The FMT of the first block of a stream. -/
def Core.streamFmt (k : Core) (base : Nat) : Nat := blkFmt (k.cistern.read base).toNat

/-- R58, R201, R204, R209: a stream's first block can be read and carries one of the codes named (log 46, DEDUCED). -/
def Core.streamOk (k : Core) (base tile : Nat) (codes : List Nat) : Except MatFault Unit :=
  allOf [mustHold (base + 64 ≤ 2 ^ 20) 0x41 tile base 64, mustHold (!k.cistern.poisoned unitSram base 64) 0x42 tile base 64,
         mustHold (codes.contains (k.streamFmt base)) 0x43 tile base 64]

/-- R56: m elements of the stream at a base lie inside a tile. -/
def Core.streamInside (k : Core) (base tile m : Nat) : Except MatFault Unit :=
  match blockFmt (k.streamFmt base) with
  | some f => k.inTile tile base (blocksOf f m * 64)
  | none => .error { code := 0x43, tile := tile, span := ownSpan base 64 }

/-- Ranges that share a byte. -/
def rangesMeet (a n b m : Nat) : Bool := a < b + m && b < a + n

/-- First byte of a second copy relative to the first (R206). -/
def Tile.half (t : Tile) : Nat := t.bytes / 2

/-- R204, R212, R216: rows of 128 bytes from row r on lie in a tile, or in its first half in redundant mode. -/
def Core.rowsInside (k : Core) (n r rows : Nat) : Except MatFault Unit :=
  let t := k.tile n
  let at_ := t.lo + r * 128
  if k.mat.redundant then mustHold (t.bytes % 256 == 0 && (r + rows) * 128 ≤ t.half) 0x41 n at_ (rows * 128)
  else mustHold ((r + rows) * 128 ≤ t.bytes) 0x41 n at_ (rows * 128)

/-- R213: the first lane in which a row differs from its copy in the second half of its tile. -/
def Core.rowDiffers (k : Core) (n r : Nat) : Option Nat :=
  let t := k.tile n
  let o := t.lo + r * 128
  let a := k.f32Row o
  let b := k.f32Row (o + t.half)
  (List.range 32).find? fun j => (a[j]?).getD 0 != (b[j]?).getD 0

/-- R213, R219: what a row of a tile meets when it is read, with its copy in redundant mode: poison of either, or a difference. -/
def Core.rowFault (k : Core) (n r : Nat) : Option MatFault :=
  let t := k.tile n
  let o := t.lo + r * 128
  if k.cistern.poisoned unitSram o 128 then some (poisonAt n o 128)
  else if !k.mat.redundant then none
  else if k.cistern.poisoned unitSram (o + t.half) 128 then some (poisonAt n (o + t.half) 128)
  else (k.rowDiffers n r).map fun j => { code := 0x46, tile := n, row := r, col := j, span := ownSpan o 128 }

/-- R206: the fault of the first of n rows, from row r on, that cannot be read or differs from its copy. -/
def Core.firstFault (k : Core) (n r rows : Nat) : Option MatFault := (List.range rows).findSome? fun i => k.rowFault n (r + i)

/-- An element of the transposing buffer as its BF16 code (R208). -/
def Core.panel (k : Core) (p row col : Nat) : Nat := (k.panels.get 0 (p * 1024 + row * 32 + col)).toNat

/-- R480, R482: the word of the transposing buffer that holds an element carries the poison syndrome. -/
def Core.panelBad (k : Core) (p row col : Nat) : Bool := k.panelsBad.contains ((p * 1024 + row * 32 + col) / 4)

/-- R208: element c of line m of a panel, along word lines or bit lines. -/
def Core.panelLine (k : Core) (p m c : Nat) (bits : Bool) : Nat := if bits then k.panel p c m else k.panel p m c

/-! ### MLDS, MHAD, MSWP (R200–R202, R215) -/

/-- Values laid into the cells of a plane of kn rows and nc columns, row by row. -/
def planeCells (kn nc : Nat) (v : Nat → Nat → Fp) : Tab Fp :=
  { entries := (List.range kn).flatMap fun kk => (List.range nc).map fun j => (kk * 32 + j, v kk j) }

/-- The exact weight of a cell that is loaded. -/
def Plane.cell (p : Plane) (kk j : Nat) : Fp := p.w.get (.zero false) (kk * 32 + j)

/-- R201: MLDS (log 46, DEDUCED). -/
def mldsMeaning (st soff depth kn nc : Nat) : MatMeaning :=
  { units := 1, rate := kn + 8
    check := fun k =>
      let base := (k.tile st).lo + soff * 64
      allOf [k.tileFits st (some false), k.inTile st base 64, k.streamOk base st [1, 3, 4, 5, 6, 7, 8],
             k.streamInside base st (kn * nc)]
    op := fun s _ _ =>
      let d := s.cur.die
      let c := s.cur.core
      let k := s.core d c
      let base := (k.tile st).lo + soff * 64
      let code := k.streamFmt base
      match k.expand base st code ((blockFmt code).getD (.int 8)) 0 (kn * nc) with
      | .error f => (s, 0, some f)
      | .ok vs =>
        (s.modCore d c fun k => { k with mat := { k.mat with shadow :=
            { w := { entries := ((List.range kn).flatMap fun kk => (List.range nc).map fun j => kk * 32 + j).zip vs }
              blank := false, depth := depth, kn := kn, nc := nc, had := false, valid := true, undef := none } } }, 0, none) }

/-- MLDS (R200, R201). -/
def execMlds (cph : BitVec 16) (st : BitVec 8) (so : BitVec 16) (depth : BitVec 1) (kn : BitVec 7) (nc : BitVec 6)
    (s : State) : Out :=
  s.matStep (.mlds cph st so depth kn nc) (mldsMeaning st.toNat so.toNat depth.toNat kn.toNat (nc.toNat + 1))

/-- R215: MHAD. -/
def mhadMeaning : MatMeaning :=
  { units := 1, rate := 32
    check := fun _ => .ok ()
    op := fun s _ _ =>
      (s.modCore s.cur.die s.cur.core fun k => { k with mat := { k.mat with shadow :=
          { w := planeCells 32 32 fun kk j => .fin (popNat 5 (kk &&& j) % 2 == 1) 1 0
            blank := false, depth := 0, kn := 32, nc := 32, had := true, valid := true, undef := none } } }, 0, none) }

/-- MHAD (R215). -/
def execMhad (cph : BitVec 16) (s : State) : Out := s.matStep (.mhad cph) mhadMeaning

/-- A barrier command with an effect on the engine at its start (R199). -/
def barrierMeaning (f : Matrix → Matrix) : MatMeaning :=
  { units := 1
    check := fun _ => .ok ()
    op := fun s _ _ => (s.modCore s.cur.die s.cur.core fun k => { k with mat := f k.mat }, 0, none) }

/-- MSWP (R202). -/
def execMswp (cph : BitVec 16) (s : State) : Out :=
  s.matStep (.mswp cph) (barrierMeaning fun m => { m with active := m.shadow, shadow := m.active })

/-- MRED (R216). -/
def execMred (cph : BitVec 16) (en : BitVec 1) (s : State) : Out :=
  s.matStep (.mred cph en) (barrierMeaning fun m => { m with redundant := en == 1 })

/-- MWAIT (R217). -/
def execMwait (cph : BitVec 16) (s : State) : Out := s.matStep (.mwait cph) (barrierMeaning id)

/-! ### MSTR (R203–R206) -/

/-- The fields of an MSTR as numbers; nr is its number of rows. -/
structure MstrArgs where
  ot : Nat
  orow : Nat
  nr : Nat
  acc : Bool
  src : Nat
  st : Nat
  bits : Bool
  soff : Nat
  kstr : Nat
  koff : Nat
  kn : Nat
  deriving DecidableEq, Repr

/-- First byte of the source of an MSTR. -/
def MstrArgs.base (a : MstrArgs) (k : Core) : Nat := (k.tile a.st).lo + a.soff * (if a.src = 2 then 128 else 64)

/-- R204: the pass width. -/
def MstrArgs.width (a : MstrArgs) (k : Core) : Nat := if a.src = 0 && k.streamFmt (a.base k) != 1 then 64 else 32

/-- R204: the start conditions in the order of its table, after the tile checks of R219. -/
def MstrArgs.check (a : MstrArgs) (k : Core) : Except MatFault Unit :=
  let p := k.mat.active
  let o := (k.tile a.ot).lo + a.orow * 128
  let h := (k.tile a.ot).half
  let b := a.base k
  let g := (k.tile a.st).half
  allOf [
    k.tileFits a.ot (some true),
    (if a.src = 0 then k.tileFits a.st (some false) else if a.src = 2 then k.tileFits a.st (some true) else .ok ()),
    (if a.src = 0 then k.streamOk b a.st [1, 3, 4] else .ok ()),
    mustBe ((p.depth == 1) == (a.width k == 64)) 0x44 a.ot,
    mustBe (a.kn == p.kn) 0x44 a.ot,
    mustBe (a.src != 0 || a.koff + a.kn ≤ a.kstr) 0x44 a.ot,
    mustBe (a.src != 0 || a.koff % a.width k == 0) 0x44 a.ot,
    mustBe p.valid 0x48 a.ot,
    mustBe (a.src != 2 || p.had) 0x45 a.st,
    k.rowsInside a.ot a.orow a.nr,
    (if a.src = 0 then k.streamInside b a.st ((a.nr - 1) * a.kstr + a.koff + a.kn)
     else if a.src = 1 then
       (if a.soff + (a.nr + 31) / 32 ≤ 64 then .ok () else .error { code := 0x41, tile := a.ot, touched := false })
     else k.rowsInside a.st a.soff a.nr),
    mustHold (a.src != 2 || !(rangesMeet b (a.nr * 128) o (a.nr * 128) ||
      (k.mat.redundant && (rangesMeet (b + g) (a.nr * 128) o (a.nr * 128) || rangesMeet b (a.nr * 128) (o + h) (a.nr * 128))))) 0x41 a.st b (a.nr * 128),
    (match if a.src = 2 && k.mat.redundant then k.firstFault a.st a.soff a.nr else none with
     | some f => .error f
     | none => .ok ())]

/-- R205: ActivationRow(i). -/
def MstrArgs.activation (a : MstrArgs) (k : Core) (i : Nat) : Except MatFault (List Fp) :=
  if a.src = 0 then
    let code := k.streamFmt (a.base k)
    k.expand (a.base k) a.st code ((blockFmt code).getD (.int 8)) (i * a.kstr + a.koff) a.kn
  else if a.src = 1 then
    let p := a.soff + i / 32
    if (List.range a.kn).any fun c => if a.bits then k.panelBad p c (i % 32) else k.panelBad p (i % 32) c then
      .error { code := 0x42, tile := a.ot, touched := false }
    else .ok ((List.range a.kn).map fun c => Sys2Proof.bf16.decode (k.panelLine (a.soff + i / 32) (i % 32) c a.bits))
  else
    let o := a.base k + i * 128
    if k.cistern.poisoned unitSram o (4 * a.kn) then .error (poisonAt a.st o (4 * a.kn))
    else .ok (((k.f32Row o).take a.kn).map fp32.decode)

/-- R205: the FP32 codes of output row i, from the activation row and the old row. -/
def MstrArgs.outRow (a : MstrArgs) (p : Plane) (act : List Fp) (old : List Nat) : List Nat :=
  let rows := List.range p.kn
  (old.zip (List.range 32)).map fun x =>
    let s : Fp :=
      if x.2 < p.nc then roundFp fp32 .rne 0 (sumProducts ((act.zip rows).map fun y => Fp.mul y.1 (p.cell y.2 x.2)))
      else .zero false
    fp32.encode (if a.acc then fadd fp32 .rne (fp32.decode x.1) s else s)

/-- R205, R206: an output row written at a place of the own cistern, from the old row there; or its poison. -/
def MstrArgs.put (a : MstrArgs) (s : State) (act : List Fp) (o : Nat) : Except MatFault State :=
  let d := s.cur.die
  let c := s.cur.core
  let k := s.core d c
  if a.acc && k.cistern.poisoned unitSram o 128 then .error (poisonAt a.ot o 128)
  else .ok (s.enginePut d c o 128 (rowOfLanesNat 4 (a.outRow k.mat.active act (k.f32Row o))) false)

/-- R205, R206: output row i, and its second copy, which accumulates onto its own old row (log 98, DEDUCED). -/
def MstrArgs.row (a : MstrArgs) (s : State) (i : Nat) : Except MatFault (State × Nat) :=
  let k := s.core s.cur.die s.cur.core
  let t := k.tile a.ot
  let o := t.lo + (a.orow + i) * 128
  match a.activation k i with
  | .error f => .error f
  | .ok act =>
    if k.mat.redundant && a.acc && k.cistern.poisoned unitSram (o + t.half) 128 then .error (poisonAt a.ot (o + t.half) 128)
    else
      match a.put s act o with
      | .error f => .error f
      | .ok s =>
        if !k.mat.redundant then .ok (s, 128)
        else match a.put s act (o + t.half) with
          | .error f => .error f
          | .ok s => .ok (s, 256)

/-- R205: output rows i to i + n − 1. -/
def MstrArgs.rows (a : MstrArgs) (s : State) (i bytes : Nat) : Nat → State × Nat × Option MatFault
  | 0 => (s, bytes, none)
  | n + 1 =>
    match a.row s i with
    | .error f => (s, bytes, some f)
    | .ok (s, b) => a.rows s (i + 1) (bytes + b) n

/-- MSTR (R203–R206). -/
def execMstr (cph : BitVec 16) (ot : BitVec 8) (orow nr : BitVec 10) (acc : BitVec 1) (src : BitVec 2) (st : BitVec 8)
    (orient : BitVec 1) (so : BitVec 16) (kstr koff : BitVec 14) (kn : BitVec 7) (s : State) : Out :=
  let red := (s.core s.cur.die s.cur.core).mat.redundant
  let a : MstrArgs :=
    { ot := ot.toNat, orow := orow.toNat, nr := nr.toNat + 1, acc := acc == 1, src := src.toNat, st := st.toNat
      bits := orient == 1, soff := if src = 1 then so.toNat % 64 else so.toNat, kstr := kstr.toNat, koff := koff.toNat
      kn := kn.toNat }
  s.matStep (.mstr cph ot orow nr acc src st orient so kstr koff kn)
    { units := a.nr, per := if red then 32 else 64, rate := if red then 2 else 1, tail := 20
      check := a.check, voids := if acc = 0 then some ot.toNat else none
      op := fun s x n => a.rows s x.pos 0 n }

/-! ### MZRO (R207) -/

/-- MZRO (R207): 64 clk of it zero 32 KiB (R199, R220). -/
def execMzro (cph : BitVec 16) (ot : BitVec 8) (s : State) : Out :=
  let n := ot.toNat
  let bytes := ((s.core s.cur.die s.cur.core).tile n).bytes
  s.matStep (.mzro cph ot)
    { units := (bytes + 511) / 512
      check := fun k => k.tileFits n none
      voids := some n
      op := fun s x m =>
        let t := (s.core s.cur.die s.cur.core).tile n
        let o := x.pos * 512
        let len := min (m * 512) (t.bytes - o)
        (s.enginePut s.cur.die s.cur.core (t.lo + o) len 0 false, len, none) }

/-! ### MXBW, MXBL (R209, R210) -/

/-- R209: the BF16 codes of panel number p of an MXBW, row by row. -/
def Core.panelFrom (k : Core) (st soff src rm seed p : Nat) : Except MatFault (List Nat) :=
  let base := (k.tile st).lo + soff * (if src = 1 then 128 else 64)
  let m := (RMode.ofCode rm).getD .rne
  let round := fun (vs : List Fp) =>
    (vs.zip (List.range 1024)).map fun x =>
      let q := p * 32 + x.2 / 32
      Sys2Proof.bf16.encode (roundFp Sys2Proof.bf16 m (rand32 (BitVec.ofNat 64 seed) (q * 128 + x.2 % 32)) x.1)
  if src = 0 then
    let code := k.streamFmt base
    match k.expand base st code ((blockFmt code).getD (.int 8)) (p * 1024) 1024 with
    | .ok vs => .ok (round vs)
    | .error f => .error f
  else
    let o := base + p * 4096
    if k.cistern.poisoned unitSram o 4096 then .error (poisonAt st o 4096)
    else .ok (round (((List.range 32).flatMap fun m => k.f32Row (o + m * 128)).map fp32.decode))

/-- A panel of the transposing buffer replaced. -/
def Core.setPanel (k : Core) (p : Nat) (codes : List Nat) : Core :=
  { k with panels := (codes.zip (List.range 1024)).foldl (fun t x => t.set (p * 1024 + x.2) (BitVec.ofNat 16 x.1)) k.panels
           panelsBad := k.panelsBad.filter fun w => w / 256 != p }

/-- MXBW (R209) (log 45, DEDUCED). -/
def execMxbw (cph : BitVec 16) (st : BitVec 8) (so : BitVec 16) (src : BitVec 1) (p0 np : BitVec 6) (rm : BitVec 3)
    (seed : BitVec 24) (s : State) : Out :=
  let n := np.toNat + 1
  let t := st.toNat
  s.matStep (.mxbw cph st so src p0 np rm seed)
    { units := n, per := 1, rate := 32, tail := 8
      check := fun k =>
        let base := (k.tile t).lo + so.toNat * (if src = 1 then 128 else 64)
        if src = 0 then
          allOf [k.tileFits t (some false), k.inTile t base 64, k.streamOk base t [1, 2, 3, 4, 5, 6, 7, 8, 9],
                 k.streamInside base t (n * 1024)]
        else allOf [k.tileFits t (some true), k.inTile t base (n * 4096)]
      op := fun s x _ =>
        let k := s.core s.cur.die s.cur.core
        match k.panelFrom t so.toNat src.toNat rm.toNat seed.toNat x.pos with
        | .error f => (s, 0, some f)
        | .ok codes => (s.modCore s.cur.die s.cur.core fun k => k.setPanel (p0.toNat + x.pos) codes, 0, none) }

/-- R210: elements e to e + n − 1 of the lines that an MXBL reads. -/
def Core.panelElems (k : Core) (p0 e n : Nat) (bits : Bool) : List Nat :=
  (List.range n).map fun i =>
    let j := e + i
    k.panelLine (p0 + j / 1024) (j / 32 % 32) (j % 32) bits

/-- R210: a BF16 block with SCALE 0x7F, NF 0 and ROT 0 of codes that are not rounded. -/
def rawBf16Block (codes : List Nat) : Nat := 1 + 127 * 256 + rowOfLanesNat 2 codes * 2 ^ 16

/-- MXBL (R210): a panel at a time; a block is written once its last element has been read (log 45, DEDUCED). -/
def execMxbl (cph : BitVec 16) (p0 np : BitVec 6) (orient : BitVec 1) (ot : BitVec 8) (oo : BitVec 16) (f : BitVec 1)
    (s : State) : Out :=
  let n := np.toNat + 1
  let t := ot.toNat
  s.matStep (.mxbl cph p0 np orient ot oo f)
    { units := n, per := 1, rate := 32, tail := 8
      check := fun k => allOf [k.tileFits t none, k.inTile t ((k.tile t).lo + oo.toNat * 64) (mxblBytes np.toNat (f == 1))]
      op := fun s x _ =>
        let d := s.cur.die
        let c := s.cur.core
        let k := s.core d c
        let o := (k.tile t).lo + oo.toNat * 64
        if k.panelsBad.any fun w => w / 256 == p0.toNat + x.pos then (s, 0, some { code := 0x42, tile := t, touched := false })
        else if f = 0 then
          (s.enginePut d c (o + x.pos * 2048) 2048 (rowOfLanesNat 2 (k.panelElems p0.toNat (x.pos * 1024) 1024 (orient == 1))) true,
           2048, none)
        else
          let b0 := x.pos * 1024 / 31
          let b1 := if x.pos + 1 = n then (n * 1024 + 30) / 31 else (x.pos + 1) * 1024 / 31
          let put := fun (s : State) (b : Nat) =>
            s.enginePut d c (o + b * 64) 64 (rawBf16Block (k.panelElems p0.toNat (b * 31) (min 31 (n * 1024 - b * 31)) (orient == 1))) true
          (((List.range (b1 - b0)).map (· + b0)).foldl put s, (b1 - b0) * 64, none) }

/-! ### MDRN (R211–R214) -/

/-- The fields of an MDRN as numbers; nr is its number of rows. -/
structure MdrnArgs where
  it : Nat
  irow : Nat
  nr : Nat
  ot : Nat
  ooff : Nat
  fmt : Nat
  raw : Bool
  rm : RMode
  hnorm : Bool
  rot : Bool
  sdiv : Bool
  grad : Bool
  nfc : Nat
  seed : Word
  deriving DecidableEq, Repr

/-- R308: the final sample count of a tile (log 47, DEDUCED). -/
def Sampling.finalCount (m : Sampling) (tile : Nat) : Option Nat :=
  (m.fcnt.toList.find? fun e => e.1 && e.2.1 == tile).map (·.2.2)

/-- R212: the start conditions. The sample count is looked up before the count of the output tile goes (log 47, DEDUCED). -/
def MdrnArgs.check (a : MdrnArgs) (k : Core) : Except MatFault Unit :=
  let i := (k.tile a.it).lo + a.irow * 128
  let h := (k.tile a.it).half
  let o := (k.tile a.ot).lo + a.ooff * 64
  let n := mdrnBytes (a.nr - 1) a.fmt a.raw
  allOf [k.tileFits a.it (some true), k.tileFits a.ot none, k.rowsInside a.it a.irow a.nr, k.inTile a.ot o n,
         mustHold (!(rangesMeet i (a.nr * 128) o n || (k.mat.redundant && rangesMeet (i + h) (a.nr * 128) o n))) 0x41 a.it i (a.nr * 128),
         mustBe (!a.sdiv || (k.smp.finalCount a.it).isSome) 0x49 a.it]

/-- R212: one lane: the value that the converter takes, the FP32 code that a raw FP32 drain writes, and whether a
gradient drain met a non-finite value there. -/
def MdrnArgs.lane (a : MdrnArgs) (pol : Bool) (count : Nat) (code : Nat) : Fp × Nat × Bool :=
  let v := fp32.decode code
  let v := if a.sdiv then fdiv fp32 .rne v (fpOfInt count) else v
  let v := if a.hnorm then fmul fp32 .rne v (fp32.decode 0x3E3504F3) else v
  let bad := a.grad && v.nonFinite
  let w := if bad && pol then .zero false else v
  (w, if a.sdiv || a.hnorm || (bad && pol) then fp32.encode w else code, bad)

/-- R212: the lanes of row i of a drain with their random bits. -/
def MdrnArgs.rowOf (a : MdrnArgs) (k : Core) (count i : Nat) : List ((Fp × Nat × Bool) × Nat) :=
  let o := (k.tile a.it).lo + (a.irow + i) * 128
  ((k.f32Row o).zip (List.range 32)).map fun x =>
    (a.lane k.nfPol count x.1, rand32 a.seed ((a.irow + i) * 128 + x.2))

/-- R213, R219: the first of rows i to i + n − 1 that stops the drain. -/
def MdrnArgs.stops (a : MdrnArgs) (k : Core) (i n : Nat) : Option (Nat × MatFault) :=
  (List.range n).findSome? fun j => (k.rowFault a.it (a.irow + i + j)).map fun f => (i + j, f)

/-- R214, R431, R432: what a drain reports of the non-finite values of its rows. -/
def State.drainNonFinite (s : State) (d c : Nat) (a : MdrnArgs) (x : Cmd) (n : Nat) : State :=
  if n = 0 then s
  else if (s.core d c).nfPol then s.countNonFinite d c a.nfc n
  else s.nonFinite d c 1 x.token a.it

/-- R212: rows from x.pos on for n rows, x.count being the divisor. Blocks are written once their last element has been
converted, the last one at the end (log 45, DEDUCED). -/
def MdrnArgs.op (a : MdrnArgs) (s : State) (x : Cmd) (n : Nat) : State × Nat × Option MatFault :=
  let d := s.cur.die
  let c := s.cur.core
  let k := s.core d c
  let stop := a.stops k x.pos n
  let last := (stop.map (·.1)).getD (x.pos + n)
  let o := (k.tile a.ot).lo + a.ooff * 64
  let rows := fun (lo hi : Nat) => ((List.range (hi - lo)).map (· + lo)).flatMap (a.rowOf k x.count)
  let fresh := rows x.pos last
  let s := s.drainNonFinite d c a x (fresh.filter fun e => e.1.2.2).length
  let fault := stop.map (·.2)
  if a.raw then
    let w := if a.fmt = 1 then 2 else 4
    let codes := fresh.map fun e =>
      if a.fmt = 1 then Sys2Proof.bf16.encode (roundFp Sys2Proof.bf16 a.rm e.2 e.1.1) else e.1.2.1
    let len := fresh.length * w
    (if len = 0 then s else s.enginePut d c (o + x.pos * 32 * w) len (rowOfLanesNat w codes) true, len, fault)
  else
    match blockFmt a.fmt with
    | none => (s, 0, fault)
    | some f =>
      let b0 := x.pos * 32 / f.n
      let b1 := if fault.isNone && last = a.nr then blocksOf f (a.nr * 32) else last * 32 / f.n
      let r0 := b0 * f.n / 32
      let xs := ((rows r0 last).map fun e => (e.1.1, e.2)).drop (b0 * f.n - r0 * 32)
      let blocks := (encodeBlocks a.fmt f a.rm a.rot xs).take (b1 - b0)
      let put := fun (s : State) (b : Nat × Nat) => s.enginePut d c (o + b.2 * 64) 64 b.1 true
      ((blocks.zip ((List.range (b1 - b0)).map (· + b0))).foldl put s, (b1 - b0) * 64, fault)

/-- MDRN (R211–R214). -/
def execMdrn (cph : BitVec 16) (it : BitVec 8) (irow nr : BitVec 10) (ot : BitVec 8) (oo : BitVec 16) (fmt : BitVec 5)
    (raw : BitVec 1) (rm : BitVec 3) (hnorm rot sdiv grad : BitVec 1) (nfc : BitVec 8) (seed : BitVec 24) (s : State) : Out :=
  let k := s.core s.cur.die s.cur.core
  let a : MdrnArgs :=
    { it := it.toNat, irow := irow.toNat, nr := nr.toNat + 1, ot := ot.toNat, ooff := oo.toNat, fmt := fmt.toNat
      raw := raw == 1, rm := (RMode.ofCode rm.toNat).getD .rne, hnorm := hnorm == 1, rot := rot == 1, sdiv := sdiv == 1
      grad := grad == 1, nfc := nfc.toNat, seed := BitVec.ofNat 64 seed.toNat }
  s.matStep (.mdrn cph it irow nr ot oo fmt raw rm hnorm rot sdiv grad nfc seed)
    { units := a.nr, per := if k.mat.redundant then 32 else 64, tail := 16
      check := a.check, voids := some ot.toNat
      note := fun k => (k.smp.finalCount it.toNat).getD 1
      op := a.op }

/-! ### MSTAT (R218) -/

/-- R218: the record of an MSTAT. -/
def Matrix.statRecord (m : Matrix) : Nat :=
  let b := fun (x : Bool) => if x then 1 else 0
  let flags := m.active.depth + 2 * m.shadow.depth + 4 * b m.active.had + 8 * b m.shadow.had + 16 * b m.active.valid +
    32 * b m.shadow.valid + 64 * b m.redundant
  m.completed % 2 ^ 64 + flags * 2 ^ 64 + m.active.kn * 2 ^ 72 + m.active.nc * 2 ^ 80 + m.shadow.kn * 2 ^ 88 +
  m.shadow.nc * 2 ^ 96 + m.queue.length * 2 ^ 104 + m.lastFault % 256 * 2 ^ 112 + m.lastInfo.toNat * 2 ^ 128

/-- MSTAT (R218). -/
def execMstat (cph : BitVec 16) (ot : BitVec 8) (oo : BitVec 16) (s : State) : Out :=
  let n := ot.toNat
  s.matStep (.mstat cph ot oo)
    { units := 1
      check := fun k => allOf [k.tileFits n none, k.inTile n ((k.tile n).lo + oo.toNat * 64) 64]
      op := fun s _ _ =>
        let k := s.core s.cur.die s.cur.core
        (s.enginePut s.cur.die s.cur.core ((k.tile n).lo + oo.toNat * 64) 64 k.mat.statRecord false, 64, none) }

end Sys2Proof.Machine
end

