-- ==== Sys2Proof/Machine/FenceWindow.lean ====
section
/-! DEFINITION. Fences (R293–R295, R347), window instructions (R343–R346) and the map instructions (R333, R334). -/

namespace Sys2Proof.Machine
open Sys2Proof

/-! ### Fences -/

/-- FENCEC (R293): earlier accesses of the classes that the mask names. -/
def execFencec (m : BitVec 16) (s : State) : Out :=
  let on := fun c => m.getLsbD c
  s.fence { entry := fun e => on e.cls
            request := fun a => on a.pkt.cls && (match a.pkt.kind with | .sync _ => false | .snap => false | _ => true)
            store := fun l => l.kind == .store && on l.cls
            result := fun _ => false
            arrival := fun a => on a.cls
            window := fun w => (s.here.win w).valid } fun s => .next s.next4

/-- FENCEX (R294): earlier accesses on the paths that the mask names. -/
def execFencex (p : BitVec 5) (s : State) : Out :=
  let c := s.here
  let me := s.cur.slot
  let far := fun (addr : Word) => match region addr with | .window _ _ => true | _ => false
  let arrives := fun (addr : Word) => p.getLsbD 3 || (p.getLsbD 4 && far addr)
  let waits := fun (a : Await) => a.of me && (match a.pkt.kind with
    | .sync _ => p.getLsbD 3
    | .snap => p.getLsbD 3
    | .arrival _ _ => p.getLsbD 3 || p.getLsbD 4
    | _ => p.getLsbD 4)
  if (p.getLsbD 4 && c.comb.any fun e => e.slots.contains me) || c.awaits.any waits ||
      (s.me.lands.any fun l => (p.getLsbD 0 && l.kind == .store) || l.arrival.any fun a => arrives a.1) ||
      (c.arrivals.any fun a => a.slot == me && arrives a.addr) || (p.getLsbD 3 && s.me.pend.any fun q => q.sync && !q.answered)
  then s.hold
  else .next s.next4

/-- FENCES (R295): the scope fault, then the wait of a release over every class and path. -/
def execFences (g : BitVec 5) (s : State) : Out :=
  if s.scopeBad g.toNat then s.raise causeScope (zext64 g) 0
  else s.releaseAll g.toNat fun s => .next s.next4

/-! ### Reads of a block (R343) -/

/-- n bytes that a word reads at issue, with the faults of a load (R128); through a window at its target (log 25, DEDUCED). -/
def State.blockRead (s : State) (va : Word) (n align : Nat) : Ans Nat :=
  (s.operand va n align rightsR).bind fun pl =>
    let at_ := fun (l : Loc) =>
      if s.syncWaits l || s.classWaits 0 then (.wait : Ans Nat)
      else if s.bad l n then .trap causePoison va 0
      else .ok (s.peek l n)
    match pl with
    | .loc l =>
      match region va with
      | .own o => s.ownLoad va o n
      | _ => at_ l
    | .versioned _ _ => accessFault va.toNat rightsR
    | .win w o => (s.farRead va w o n).bind fun b => if b.2 then .trap causePoison va 0 else .ok b.1

/-- A block that a word reads at issue, with its lines of host memory in a capture (R412). -/
def State.readBlock (s : State) (va : Word) (n align : Nat) (k : State → Nat → Out) : Out :=
  (s.blockRead va n align).run s fun v => k (s.captureRead va n align) v

/-! ### Windows -/

/-- R335: a descriptor's fields as a window. -/
def windowOf (v : Nat) : Window :=
  let f := fun i => BitVec.ofNat 64 (v / 2 ^ (64 * i))
  { routes := #v[f 0, f 1, f 2, f 3], ctrl := f 4, base := f 5, limit := f 6 }

/-- R343: why a valid descriptor is refused: TRAP.VAL and the reason word. -/
def State.winRefused (s : State) (v : Nat) : Option (Nat × Nat) :=
  let x := windowOf v
  let t := s.mapTorus s.cur.die s.cur.core
  let chk := fun i =>
    let r := vget x.routes i 0
    if i ≤ x.nrt then routeCheck t s.here.turn r (s.pos s.cur.die) x.tgt x.cl
    else if r != 0 then 1 else 0
  match firstIndex (fun i => chk i != 0) 4 with
  | some i => some (i, chk i + i * 2 ^ 16)
  | none =>
    if x.kind = 3 || (x.kind = 1 && 191 < x.field 19 8 + x.field 27 8) || x.limit = 0 || 2 ^ 32 < x.limit.toNat ||
        v / 2 ^ 448 != 0 || x.ctrl.toNat / 2 ^ 52 != 0
    then some (0x10, 1) else none

/-- R343: the descriptor installed; its sequences begin anew (log 27, DEDUCED). -/
def State.installWindow (s : State) (w v : Nat) : State :=
  let x := windowOf v
  let g := s.inGang s.cur.die s.cur.core (s.winDie x)
  (s.upHere fun k => k.modWin w fun _ => { x with gang := g, gen := s.ids }).newId

/-- WINSET (R343). -/
def execWinset (w : BitVec 6) (a : BitVec 6) (s : State) : Out :=
  s.readBlock (s.rx a) 64 64 fun s v =>
    let n := w.toNat
    if s.here.comb.any fun e => e.win == n then (s.drainWhere s.cur.die s.cur.core fun e => e.win == n).hold
    else if (s.here.win n).out ≠ 0 then s.hold
    else
      let s := s.loadFab s.cur.die s.cur.core
      if (windowOf v).valid then
        match s.winRefused v with
        | some (i, r) => s.raise causeRoute (BitVec.ofNat 64 i) (BitVec.ofNat 64 r)
        | none => .next (s.installWindow n v).next4
      else .next (s.installWindow n v).next4

/-- The access fault of a window that is not VALID: its first address (R344, R345). -/
def State.winFault (s : State) (w : BitVec 6) : Out := s.raise causeAccess (0xFFFF020000000000 + zext64 w <<< 32) 0

/-- WINRT (R344). -/
def execWinrt (w : BitVec 6) (a : BitVec 6) (i : BitVec 2) (s : State) : Out :=
  let x := s.here.win w.toNat
  if !x.valid then s.winFault w
  else if x.nrt < i.toNat then s.raise causeRoute (zext64 i) (BitVec.ofNat 64 (1 + i.toNat * 2 ^ 16))
  else
    let s := s.loadFab s.cur.die s.cur.core
    let r := routeCheck (s.mapTorus s.cur.die s.cur.core) s.here.turn (s.rx a) (s.pos s.cur.die) x.tgt x.cl
    if r ≠ 0 then s.raise causeRoute (zext64 i) (BitVec.ofNat 64 (r + i.toNat * 2 ^ 16))
    else .next (s.upHere fun k => k.modWin w.toNat fun x => { x with routes := x.routes.setIfInBounds i.toNat (s.rx a) }).next4

/-- WALLOW (R345). -/
def execWallow (w : BitVec 6) (d : BitVec 6) (a : BitVec 6) (s : State) : Out :=
  let x := s.here.win w.toNat
  if !x.valid then s.winFault w
  else
    let v := s.rx a
    let old := BitVec.ofNat 64 (x.allow + 1)
    let n := BitVec.ofNat 64 ((min v.toNat 1024 - 1) * 2 ^ 41)
    let m : Word := 0x3FF <<< 41
    let s := if v = 0 then s else s.upHere fun k => k.modWin w.toNat fun x => { x with ctrl := (x.ctrl &&& ~~~m) ||| n }
    s.result d old 1

/-- WINQ (R346) (log 43, DEDUCED). -/
def execWinq (w : BitVec 6) (d : BitVec 6) (s : State) : Out :=
  let x := s.here.win w.toNat
  let bit := fun (b : Bool) (i : Nat) => if b then 2 ^ i else 0
  s.result d (BitVec.ofNat 64 (x.out + x.allow * 2 ^ 11 + bit x.valid 21 + bit x.gang 22 + bit x.err 23 +
    x.reason % 2 ^ 18 * 2 ^ 24)) 1

/-- FENCEF (R347): the wait for the earlier writes, then the flag, and the wait for its acknowledgement. -/
def execFencef (w : BitVec 6) (a b : BitVec 6) (s : State) : Out :=
  let va := s.rx a
  let n := w.toNat
  match region va with
  | .window x o =>
    if x ≠ n then s.raise causeAccess va 1
    else if va.toNat % 8 ≠ 0 then s.raise causeAlign va 8
    else
      (s.winNeed n o 8 false va rightsW).run s fun _ =>
        s.fence { entry := fun e => e.win == n
                  request := fun a => a.pkt.win == n && !a.loads && !a.arrives
                  store := fun _ => false, result := fun _ => false, arrival := fun _ => false, window := fun y => y == n } fun s =>
          if (s.here.win n).free = 0 then s.hold
          else
            let id := s.ids
            let q := (s.here.win n).take 0
            let s := (s.addPend (Pend.new .none)).upHere fun k => k.modWin n fun _ => q.2.unit
            let p := s.packetOf s.cur.die s.cur.core n (o / 64 * 64) .flag
            let s := s.inject { p with id := id, slot := s.cur.slot, seq := q.1, owner := id, pc := s.me.pc, addr := va
                                       data := BitVec.ofNat 512 ((s.rx b).toNat * 2 ^ (8 * (o % 64))), bytes := lineMask (o % 64) 8 }
            .next (s.block (.answer id))
  | _ => s.raise causeAccess va 1

/-! ### The topology map -/

/-- A variable-latency result known at issue. -/
def State.variable (s : State) (d : BitVec 6) (v : Word) (late : Option LateTrap) : Out :=
  .next (s.loaded { Pend.new (.x d.toNat) with vals := if late.isSome then [] else [v], late := late }).next4

/-- ND as the map gives it (R332). -/
def State.mapDies (s : State) : Nat := s.mapWord s.cur.die s.cur.core 1 / 2 ^ 16 % 2 ^ 16

/-- TOPORD (R333). -/
def execTopord (d a : BitVec 6) (s : State) : Out :=
  let i := (s.rx a).toNat
  if 8 + 7 * s.mapDies ≤ i then s.variable d (BitVec.allOnes 64) none
  else
    let l := s.mapLoc s.cur.die s.cur.core i
    s.variable d (BitVec.ofNat 64 (s.peek l 8))
      (if s.bad l 8 then some (s.latePoison (BitVec.ofNat 64 (s.here.topo.toNat * 64 + 8 * i))) else none)

/-- R332, R334: the state of link d of die n in the map. -/
def State.mapLink (s : State) (n d : Nat) : Nat := s.mapWord s.cur.die s.cur.core (8 + s.mapDies + 6 * n + d) % 4

/-- R334: the reason word of a walk through the map's links. -/
def State.walkLinks (s : State) (t : Torus) : List Hop → Bool → Nat
  | [], degr => if degr then 2 ^ 18 else 0
  | h :: rest, degr =>
    let n := vget h.pos 0 0 + vget t.size 0 1 * (vget h.pos 1 0 + vget t.size 1 1 * vget h.pos 2 0)
    let st := s.mapLink n h.dir
    if 2 ≤ st then reasonWord 6 h.seg h.hop + (if degr then 2 ^ 18 else 0)
    else s.walkLinks t rest (degr || st == 1)

/-- R334: the reason word of a route and a target, with the GEN of the map. -/
def State.routeWord (s : State) (r b : Word) : Nat :=
  let t := s.mapTorus s.cur.die s.cur.core
  let v := b.toNat
  let tgt : Vector Nat 3 := #v[v % 32, v / 2 ^ 5 % 32, v / 2 ^ 10 % 32]
  let src := s.pos s.cur.die
  let c := if v / 2 ^ 17 != 0 then reasonWord 1 7 0 else routeCheck t s.here.turn r src tgt (v / 2 ^ 15 % 4)
  let w := if c = 0 then s.walkLinks t (hopsFrom t (movesOf r) 0 src).1 false else c
  w + s.mapWord s.cur.die s.cur.core 0 / 2 ^ 32 * 2 ^ 32

/-- RTCHK (R334). -/
def execRtchk (d a b : BitVec 6) (s : State) : Out := s.variable d (BitVec.ofNat 64 (s.routeWord (s.rx a) (s.rx b))) none

end Sys2Proof.Machine
end

