-- ==== Sys2Proof/Machine/Sha3.lean ====
section
/-! DEFINITION. SHA3-256, which the keys of traces and the checks of firmware use (R3, R390, R495); the function is that of
FIPS 202 (log 12, PRESUMED). Its constants are computed by the rules that define them, not listed. -/

namespace Sys2Proof.Machine
open Sys2Proof

/-- The 25 words of a sponge: word x + 5·y stands in column x of row y. -/
abbrev Sponge := Vector Word 25

/-- A word of a sponge by its number. -/
def Sponge.at_ (a : Sponge) (i : Nat) : Word := vget a i 0

/-- A word of a sponge replaced. -/
def Sponge.put (a : Sponge) (i : Nat) (v : Word) : Sponge := a.setIfInBounds i v

/-- The register of 8 bits that gives the round constants, one step on: x^8 = x^6 + x^5 + x^4 + 1. -/
def tapped (r : Nat) : Nat := if r < 128 then 2 * r else (2 * r - 256) ^^^ 0x71

/-- The bits that one round takes from the register, at the places 2^j − 1 of its constant, for j from 7 − n on; and the
register after them. -/
def roundBits (r : Nat) : Nat → Nat × Nat
  | 0 => (0, r)
  | n + 1 =>
    let x := roundBits (tapped r) n
    (r % 2 * 2 ^ (2 ^ (6 - n) - 1) + x.1, x.2)

/-- The sum of a column modulo 2, of every word in it. -/
def Sponge.column (a : Sponge) (x : Nat) : Word := (List.range 5).foldl (fun v y => v ^^^ a.at_ (x % 5 + 5 * y)) 0

/-- Every word takes the sums of the column before its own and, turned by one, of the column after it. -/
def Sponge.mixed (a : Sponge) : Sponge :=
  let d := fun (x : Nat) => a.column (x + 4) ^^^ (a.column (x + 1)).rotateLeft 1
  Vector.ofFn fun i => a.at_ i.val ^^^ d (i.val % 5)

/-- Where the word of a number goes: column x of row y to column y of row 2·x + 3·y. -/
def moved (i : Nat) : Nat := i / 5 + 5 * ((2 * (i % 5) + 3 * (i / 5)) % 5)

/-- The words move along the way that begins at word 1; the one at step t of it is turned by (t + 1)·(t + 2) / 2. -/
def Sponge.turned (a : Sponge) : Sponge :=
  ((List.range 24).foldl (fun (x : Nat × Sponge) t =>
    (moved x.1, x.2.put (moved x.1) ((a.at_ x.1).rotateLeft ((t + 1) * (t + 2) / 2 % 64)))) (1, a)).2

/-- Every word takes, within its row, the next word but one where the next one has a 0. -/
def Sponge.bent (a : Sponge) : Sponge :=
  Vector.ofFn fun i =>
    let next := fun (k : Nat) => a.at_ (i.val / 5 * 5 + (i.val + k) % 5)
    a.at_ i.val ^^^ (next 2 &&& ~~~next 1)

/-- n rounds from a state of the constants' register on. -/
def Sponge.rounds (a : Sponge) (r : Nat) : Nat → Sponge
  | 0 => a
  | n + 1 =>
    let c := roundBits r 7
    let b := a.mixed.turned.bent
    (b.put 0 (b.at_ 0 ^^^ BitVec.ofNat 64 c.1)).rounds c.2 n

/-- n bytes of a list as a number, the first least significant. -/
def numberOf (bs : List Byte) (n : Nat) : Nat := (bs.take n).foldr (fun b v => b.toNat + 256 * v) 0

/-- A block of 17 words taken in, and the 24 rounds. -/
def Sponge.absorb (a : Sponge) (bs : List Byte) : Sponge :=
  ((List.range 17).foldl (fun a i => a.put i (a.at_ i ^^^ BitVec.ofNat 64 (numberOf (bs.drop (8 * i)) 8))) a).rounds 1 24

/-- n blocks of 136 bytes taken in. -/
def Sponge.absorbAll (a : Sponge) (bs : List Byte) : Nat → Sponge
  | 0 => a
  | n + 1 => (a.absorb bs).absorbAll (bs.drop 136) n

/-- The bytes that fill a message of n bytes up to whole blocks: 0x06 first and 0x80 last, one byte 0x86 where both meet. -/
def fillOf (n : Nat) : List Byte :=
  let k := 136 - n % 136
  (List.range k).map fun i => BitVec.ofNat 8 ((if i = 0 then 0x06 else 0) + if i + 1 = k then 0x80 else 0)

/-- The digest of a message, its first byte in bits [7:0]. -/
def sha3 (bs : List Byte) : BitVec 256 :=
  let a := Sponge.absorbAll (Vector.replicate 25 0) (bs ++ fillOf bs.length) (bs.length / 136 + 1)
  a.at_ 3 ++ a.at_ 2 ++ a.at_ 1 ++ a.at_ 0

end Sys2Proof.Machine
end

