-- ==== Sys2Proof/Machine/Strokes.lean ====
section
/-! DEFINITION. Resident task records, and the strokes of graphs: their start, the completions of their nodes, the guard
stop, the hand-off, the recording and the end (R350, R351, R388–R397, R403–R410, R470, R471). -/

namespace Sys2Proof.Machine
open Sys2Proof

/-! ### Resident records (R351) -/

/-- A record of a die changed. -/
def Die.modRec (x : Die) (h : Nat) (f : TaskRec → TaskRec) : Die :=
  match x.recs.find h with
  | some t => { x with recs := x.recs.set h (f t) }
  | none => x

/-- A record joins its queue, at the end or at the head. -/
def Die.queueRec (x : Die) (h : Nat) (front : Bool) : Die :=
  match x.recs.find h with
  | some t =>
    let l := x.queues.get [] t.queue
    { x with recs := x.recs.set h { t with st := .queued, runner := none }
             queues := x.queues.set t.queue (if front then h :: l else l ++ [h]) }
  | none => x

/-- A record leaves its queue. -/
def Die.unqueue (x : Die) (h : Nat) : Die :=
  match x.recs.find h with
  | some t => { x with queues := x.queues.set t.queue ((x.queues.get [] t.queue).filter fun y => y != h) }
  | none => x

/-- The counters of a job changed (R361). -/
def Die.modJob (x : Die) (j : Nat) (f : Job → Job) : Die := { x with jobs := x.jobs.set j (f (x.jobs.get {} j)) }

/-- The next handle from i on that is not in use. -/
def nextHandle (used : List Nat) (i : Nat) : Nat → Nat
  | 0 => i
  | n + 1 => if used.contains i then nextHandle used ((i + 1) % 65536) n else i

/-- R351: the wellhead has a place for one more record. -/
def Die.hasRoom (x : Die) : Bool := x.recs.entries.length < 65536

/-- A free handle, where the wellhead has room (log 13, DESIGN CHOICE). -/
def Die.freeHandle (x : Die) (pick : Nat) : Nat :=
  let used := x.recs.entries.map (·.1)
  nextHandle used (pick % 65536) used.length

/-- A record installed with a handle, waiting or queued, and counted for its job. -/
def Die.install (x : Die) (h : Nat) (t : TaskRec) : Die :=
  let x := { x with recs := x.recs.set h { t with st := .waiting } }
  let x := x.modJob t.job fun j => { j with out := j.out + 1 }
  if t.deps = 0 then x.queueRec h false else x

/-- A record of a die installed; the handle it got. -/
def State.installRec (s : State) (d : Nat) (t : TaskRec) : Nat × State :=
  let h := (s.die d).freeHandle (Config.choice s.fresh)
  (h, s.stamp.modDie d fun x => x.install h t)

/-- One dependence of a waiting record met (R359). -/
def Die.satisfy (x : Die) (h : Nat) : Die :=
  match x.recs.find h with
  | some t =>
    if t.st = .waiting then
      let x := { x with recs := x.recs.set h { t with deps := t.deps - 1 } }
      if t.deps ≤ 1 then x.queueRec h false else x
    else x
  | none => x

/-- A record leaves the wellhead, and its job (R359). -/
def Die.freeRec (x : Die) (h : Nat) : Die :=
  match x.recs.find h with
  | some t => ({ x with recs := x.recs.erase h }).modJob t.job fun j => { j with out := j.out - 1 }
  | none => x

/-! ### Graphs and their nodes (R381, R382, R393) -/

/-- The key of a graph in the graph stores: the context's ASID and the graph id. -/
def graphKey (asid gid : Nat) : Nat := asid * 256 + gid

def State.graph (s : State) (d key : Nat) : Option Graph := (s.die d).graphs.find key

/-- The stroke of a graph as a die sees it. -/
def State.stroke (s : State) (d key : Nat) : Option Stroke := (s.graph d key).bind (·.run)

/-- The dies that hold a graph: those of its gang (R383). -/
def State.graphDies (s : State) (key : Nat) : List Nat :=
  (s.dies.entries.filter fun e => (e.2.graphs.find key).isSome).map (·.1)

/-- A graph changed on every die that holds it. -/
def State.modGraphs (s : State) (key : Nat) (f : Graph → Graph) : State :=
  (s.graphDies key).foldl (fun s d => s.modDie d fun x =>
    match x.graphs.find key with
    | some g => { x with graphs := x.graphs.set key (f g) }
    | none => x) s

/-- The die of a node (R393): of one without a die of its own, the die that accepted the pump, in a replay that of the recording
(log 100, DEDUCED). -/
def Stroke.dieOf (r : Stroke) (n : Node) : Nat := if n.die = 0xFFFF then r.home else n.die

/-- The nodes of a graph with their indices. -/
def Graph.indexed (g : Graph) : List (Nat × Node) := (List.range g.nodes.length).zip g.nodes

/-- Predecessors of a node, in increasing index. -/
def Graph.preds (g : Graph) (i : Nat) : List Nat := (g.indexed.filter fun e => e.2.succ.contains i).map (·.1)

/-- The record of a node with a dependence count (R388, R393). -/
def Graph.formRecord (g : Graph) (r : Stroke) (key i : Nat) (n : Node) (deps : Nat) : TaskRec :=
  let arg := fun (k : Nat) =>
    let v := vget n.args k 0
    if n.pbind / 2 ^ k % 2 = 1 then g.params.get 0 (v.toNat % 256) else v
  let put := fun (b v : Nat) => v * 2 ^ (8 * b)
  { bits := BitVec.ofNat 512 (put 0 n.entry.toNat + put 8 (arg 0).toNat + put 16 (arg 1).toNat + put 24 (arg 2).toNat +
      put 32 (arg 3).toNat + put 40 (r.token % 2 ^ 32) + put 44 (n.dl % 256) + put 46 (n.aff % 2 ^ 16) + put 48 (n.queue % 2 ^ 16) +
      put 50 (deps % 2 ^ 16) + put 52 (g.job % 2 ^ 16))
    st := .waiting, deps := deps, asid := g.asid, node := some (key, i) }

/-- Predecessors of a node that are not yet done (R408). -/
def Graph.open_ (g : Graph) (r : Stroke) (i : Nat) : Nat := ((g.preds i).filter fun p => !r.bits.contains p).length

/-- R393, R408: the record of one node, installed with the dependences still open; owed while the wellhead is full (log 53,
DEDUCED). -/
def State.installNode (s : State) (d key i : Nat) : State :=
  match s.graph d key, s.stroke d key with
  | some g, some r =>
    match g.nodes[i]? with
    | some n =>
      if (s.die d).hasRoom then
        (s.installRec d (g.formRecord r key i n (g.open_ r i))).2.modStroke d key fun r => { r with owed := r.owed.filter fun j => j != i }
      else s.modStroke d key fun r => { r with owed := insertNat r.owed i }
    | none => s
  | _, _ => s

/-- The records of the nodes of a die that are not yet done (R393, R408). -/
def State.installNodes (s : State) (d key : Nat) : State :=
  match s.graph d key, s.stroke d key with
  | some g, some r =>
    (g.indexed.filter fun e => r.dieOf e.2 == d && (r.nodes.find e.1).isNone).foldl (fun s e => s.installNode d key e.1) s
  | _, _ => s

/-- The graphs of a die with the nodes whose records are owed (log 53, DEDUCED). -/
def Die.owing (x : Die) : List (Nat × Nat) :=
  x.graphs.entries.flatMap fun e => ((e.2.run.map (·.owed)).getD []).map fun i => (e.1, i)

/-- R351: owed records enter as places become free (log 53, DEDUCED). -/
def State.installOwed (s : State) (d : Nat) : State :=
  ((s.die d).owing.take (65536 - (s.die d).recs.entries.length)).foldl (fun s e => s.installNode d e.1 e.2) s

/-! ### Modes (R389) -/

/-- The graph of the latest stroke of a die. -/
def Die.latest (x : Die) : Nat := graphKey x.grAsid.toNat x.grGid.toNat

/-- The mode of a stroke on a die, which GR.STAT shows for the latest graph. -/
def State.setMode (s : State) (d key : Nat) (m : StrokeMode) : State :=
  (s.modStroke d key fun r => { r with mode := m }).modDie d fun x =>
    if x.latest = key then { x with grMode := m } else x

/-! ### Completions (R397, R470) -/

/-- A completion reaches a die: its bit, and, where the die schedules dynamically, the dependences of its records. -/
def State.completionArrive (s : State) (d key node : Nat) : State :=
  match s.graph d key, s.stroke d key with
  | some g, some r =>
    if r.bits.contains node then s
    else
      let s := s.modStroke d key fun r => { r with bits := insertNat r.bits node }
      match r.mode with
      | .replay => s
      | .stopping => s
      | _ =>
        let succ := ((g.nodes[node]?).map (·.succ)).getD []
        let hs := (s.die d).recs.entries.filter fun e =>
          (e.2.node.map fun n => n.1 == key && succ.contains n.2).getD false
        hs.foldl (fun s e => s.modDie d fun x => x.satisfy e.1) s
  | _, _ => s

/-- A node of a die is done or discarded: its bit on its own die, and the completion sent to every other die that holds a
successor (R393, R397). -/
def State.nodeDone (s : State) (d key node : Nat) (how : NodeState) : State :=
  match s.graph d key, s.stroke d key with
  | some g, some r =>
    if (r.nodes.find node).isSome then s
    else
      let s := (s.modStroke d key fun r => { r with nodes := r.nodes.set node how }).completionArrive d key node
      let succ := ((g.nodes[node]?).map (·.succ)).getD []
      let dies := (succ.filterMap fun i => (g.nodes[i]?).map r.dieOf).foldl insertNat []
      (dies.filter fun n => n != d).foldl (fun s n =>
        (s.later (1 + Config.latency s.fresh)
          { who := { die := n, id := key, n := node, val := BitVec.ofNat 64 r.token }, op := .completionBitReceived }).stamp) s
  | _, _ => s

/-- The step that concerns a message of a stroke still concerns the running one. -/
def State.sameStroke (s : State) : Bool :=
  match s.stroke s.cur.die s.cur.id with
  | some r => r.token == s.cur.val.toNat
  | none => false

/-- COMPLETION_BIT_RECEIVED (R397, R470). -/
def execCompletionBitReceived (s : State) : Out :=
  .next (if s.sameStroke then s.completionArrive s.cur.die s.cur.id s.cur.n else s)

/-! ### Players (R397, R407) -/

/-- R407: the player stands at a task boundary: it has issued a DONE and then at most WAITNs, or nothing but WAITNs (log 78,
DEDUCED). -/
def Player.atBoundary (p : Player) : Bool :=
  match p.part with
  | none => true
  | some t => (((t.entries.take p.cur).reverse.find? fun e => e.kind != .waitn).map fun e => e.kind == .done).getD true

/-- A core's player changed. -/
def State.modPlayer (s : State) (d c : Nat) (f : Player → Player) : State :=
  s.modCore d c fun k => { k with player := f k.player }

/-- R396: the STALL fields of a part filed with its trace. -/
def State.fileStalls (s : State) (d key : Nat) (t : TracePart) : State :=
  match s.stroke d key with
  | none => s
  | some r =>
    s.modDie d fun x =>
      { x with traces := x.traces.map fun q =>
          if q.asid = key / 256 && q.desc = r.desc then
            { q with parts := q.parts.map fun p => if p.core = t.core && p.version = t.version then { p with entries := t.entries } else p }
          else q }

/-- A player ends or stops: its part is no longer left, and what it issued is kept (R470, R471). -/
def State.playerOver (s : State) (d c : Nat) (stopped : Bool) : State :=
  let p := (s.core d c).player
  match p.part with
  | none => s
  | some t =>
    let s := s.fileStalls d p.gid t
    let s := s.modStroke d p.gid fun r =>
      { r with left := r.left.filter fun y => y != t.core, issued := r.issued ++ [{ t with entries := t.entries.take p.cur }] }
    s.modPlayer d c fun p => { p with act := false, stopping := false, stopped := stopped, call := none }

/-- A part taken up by a core's player, from its first entry on; its STALL fields count anew. -/
def Player.take (key : Nat) (t : TracePart) : Player :=
  { act := true, gid := key, part := some { t with entries := t.entries.map fun e => { e with stall := 0 } } }

/-- A part of a stroke of the core's context that waits for its player, with the graph (log 52, DEDUCED). -/
def State.waitingPart (s : State) (d c : Nat) : Option (Nat × TracePart) :=
  (s.die d).graphs.entries.findSome? fun e =>
    if e.2.asid ≠ (s.core d c).ctx.asid.toNat then none
    else (e.2.run.bind fun r => r.todo.find? fun t => t.core == c).map fun t => (e.1, t)

/-- A core can run the player of a part: it runs the context, and its player is not at work (log 52, DEDUCED). -/
def State.playerFree (s : State) (d c asid : Nat) : Bool :=
  let k := s.core d c
  !k.player.act && s.runs d c asid && !k.closed

/-- A player that is free takes up a part that waits for it (log 52, DEDUCED). -/
def State.nextPart (s : State) (d c : Nat) : State :=
  match s.waitingPart d c with
  | none => s
  | some (key, t) =>
    if s.playerFree d c (key / 256) then
      (s.modStroke d key fun r => { r with todo := r.todo.filter fun y => y.core != c }).modPlayer d c fun _ => Player.take key t
    else s

/-! ### The guard stop (R407) -/

/-- A die stops its replay of a stroke: MODE 5, and every player stops at its next task boundary (log 78, DEDUCED). -/
def State.stopDie (s : State) (d key : Nat) : State :=
  match s.stroke d key with
  | none => s
  | some r =>
    if r.mode ≠ .replay then s
    else
      let waiting := r.todo.map (·.core)
      let s := s.modStroke d key fun r =>
        { r with gstop := true, todo := [], left := r.left.filter fun c => !waiting.contains c }
      let s := (s.setMode d key .stopping).modDie d fun x => if x.latest = key then { x with grStop := true } else x
      ((s.die d).cores.entries.filter fun e => e.2.player.act && e.2.player.gid == key).foldl (fun s e =>
        if e.2.player.atBoundary then s.playerOver d e.1 true
        else s.modPlayer d e.1 fun p => { p with stopping := true }) s

/-- A guard stop that begins on a die, and is broadcast to the other dies of the gang (log 78, DEDUCED). -/
def State.guardStop (s : State) (d key : Nat) : State :=
  match s.stroke d key with
  | none => s
  | some r =>
    ((s.graphDies key).filter fun n => n != d).foldl (fun s n =>
      (s.later (1 + Config.latency s.fresh)
        { who := { die := n, id := key, val := BitVec.ofNat 64 r.token }, op := .guardStopBroadcast }).stamp) (s.stopDie d key)

/-- GUARD_STOP_BROADCAST (R407). -/
def execGuardStopBroadcast (s : State) : Out := .next (if s.sameStroke then s.stopDie s.cur.die s.cur.id else s)

/-- R408: every player of a die that is stopping has stopped. -/
def State.allStopped (s : State) (d key : Nat) : Bool :=
  match s.stroke d key with
  | some r => r.mode == .stopping && r.left.isEmpty
  | none => false

/-- HAND_OFF (R408): the nodes not done become records, and the die goes on dynamically. -/
def execHandOff (s : State) : Out :=
  let d := s.cur.die
  let key := s.cur.id
  .next (if s.allStopped d key then (s.setMode d key .handedOff).installNodes d key else s)

/-! ### The recording (R394–R396, R471) -/

/-- GUARD entries that a node executed, in order; a mark of a call is one of them (R395). -/
def Stroke.guardsOf (r : Stroke) (node : Nat) : List TraceEntry :=
  (r.order.filterMap fun e =>
    if e.2.node ≠ node then none
    else match e.2.kind with
      | .guard => some e.2
      | .mark => some { e.2 with kind := .guard, aux := 3, tag := 0 }
      | _ => none)

/-- The WAITN entries of a node. -/
def Graph.waits (g : Graph) (node : Nat) : List TraceEntry := (g.preds node).map fun p => { kind := .waitn, node := p }

/-- The entries of a core from what the recorder noted, given the nodes that have begun. -/
def partEntries (g : Graph) (r : Stroke) : List TraceEntry → List Nat → List TraceEntry
  | [], _ => []
  | e :: rest, begun =>
    let n := e.node
    if r.calls.contains n then
      match e.kind with
      | .call => g.waits n ++ [e] ++ r.guardsOf n ++ partEntries g r rest begun
      | .done => e :: partEntries g r rest begun
      | _ => partEntries g r rest begun
    else
      match e.kind with
      | .call => partEntries g r rest begun
      | _ =>
        if begun.contains n then e :: partEntries g r rest begun
        else g.waits n ++ [e] ++ partEntries g r rest (n :: begun)

/-- R471: the entries that a player issued, with each call's GUARD entries as executed, and without WAITN entries that no
entry follows. -/
def Stroke.issuedOf (r : Stroke) (c : Nat) : List TraceEntry :=
  match r.issued.find? fun t => t.core == c with
  | none => []
  | some t =>
    let es := (t.entries.reverse.dropWhile fun e => e.kind == .waitn).reverse
    (es.filter fun e => e.kind != .guard).flatMap fun e =>
      match e.kind with
      | .call => e :: r.guardsOf e.node
      | _ => [e]

/-- The trace parts of a die at the end of a stroke (R394). -/
def Graph.parts (g : Graph) (r : Stroke) (version : Nat) : List TracePart :=
  let cores := ((r.issued.map (·.core)) ++ r.order.map (·.1)).foldl insertNat []
  let mk := fun (c : Nat) =>
    let pre := r.issuedOf c
    let seen := (pre.filter fun e => e.kind != .waitn).map (·.node)
    let notes := (r.order.filter fun e => e.1 == c && !seen.contains e.2.node).map (·.2)
    let es := pre ++ partEntries g r notes []
    let last := (es.getLast?.map (·.node)).getD 0
    { core := c, version := version, entries := es ++ [{ kind := .end_, node := last }], grants := r.grants.get [] c : TracePart }
  match cores with
  | [] => [{ core := 0xFFFF, version := version, entries := [{ kind := .end_ }] }]
  | cs => cs.map mk

/-- R394: the set least recently used of a context. -/
def oldestTrace (ts : List TraceSet) : Option TraceSet :=
  ts.foldl (fun m t => match m with
    | none => some t
    | some u => if t.used < u.used then some t else some u) none

/-- R394: parts filed under a descriptor on a die; the 257th set of a context evicts another (log 55, DEDUCED). -/
def Die.fileSet (x : Die) (t : TraceSet) : Die :=
  let others := x.traces.filter fun q => !(q.asid == t.asid && q.desc == t.desc)
  let mine := others.filter fun q => q.asid == t.asid
  let out := if 256 ≤ mine.length then oldestTrace mine else none
  { x with traces := (match out with
      | some q => others.filter fun y => !(y.asid == q.asid && y.desc == q.desc)
      | none => others) ++ [t] }

/-- The set of a context with a descriptor. -/
def Die.traceOf (x : Die) (asid : Nat) (desc : List Byte) : Option TraceSet :=
  x.traces.find? fun q => q.asid == asid && q.desc == desc

/-! ### The end of a stroke (R388) -/

/-- R388: the stroke has ended on a die. -/
def State.strokeEndedOn (s : State) (d key : Nat) : Bool :=
  match s.graph d key, s.stroke d key with
  | some g, some r =>
    r.mode != .stopping && r.left.isEmpty && g.indexed.all fun e => r.dieOf e.2 != d || (r.nodes.find e.1).isSome
  | _, _ => true

/-- R388: the stroke has ended for the gang. -/
def State.strokeEnded (s : State) (key : Nat) : Bool := (s.graphDies key).all fun d => s.strokeEndedOn d key

/-- R394, R471: what a die files at the end of a stroke: the parts of a recording at first sight, or the next version
after a hand-off (log 55, DEDUCED). -/
def State.fileStroke (s : State) (d key : Nat) (handed : Bool) : State :=
  match s.graph d key, s.stroke d key with
  | some g, some r =>
    let asid := key / 256
    let old := ((s.die d).traceOf asid r.desc).bind fun t => t.parts.head?.map (·.version)
    let file := fun (v : Nat) => s.modDie d fun x =>
      x.fileSet { asid := asid, gid := key % 256, key := r.key, desc := r.desc, home := r.home, parts := g.parts r v, used := s.clk }
    if r.mode = .record then file 1 else if handed then file (old.getD 0 + 1) else s
  | _, _ => s

/-- Every node of the stroke of a die was done, none discarded (log 55, DEDUCED). -/
def State.strokeWhole (s : State) (d key : Nat) : Bool :=
  match s.stroke d key with
  | some r => r.nodes.entries.all fun e => e.2 == .done
  | none => true

/-- STROKE_END (R388): the recording is filed, the token cleared, and a pending stroke starts in the next clk (R387). -/
def execStrokeEnd (s : State) : Out :=
  let key := s.cur.id
  let dies := s.graphDies key
  match s.stroke s.cur.die key with
  | none => .next s
  | some r =>
    if !s.strokeEnded key then .next s
    else
      let handed := (s.die r.origin).gmRec && dies.any fun d => ((s.stroke d key).map (·.gstop)).getD false
      let whole := dies.all fun d => s.strokeWhole d key
      let s := if whole then dies.foldl (fun s d => s.fileStroke d key handed) s else s
      let s := dies.foldl (fun s d => s.modDie d fun x =>
        { x with tokens := x.tokens.filter fun t => t != r.token
                 grMode := if x.latest = key then .idle else x.grMode }) s
      let s := s.modGraphs key fun g => { g with run := none }
      .next (match s.graph s.cur.die key with
        | some { pending := some (_, _, o), .. } => s.later 1 { who := { die := o, id := key }, op := .pendingStrokeStart }
        | _ => s)

/-! ### The start of a stroke (R388–R391) -/

/-- The 8 bytes of a word. -/
def bytesOf (v : Nat) : List Byte := (List.range 8).map fun i => BitVec.ofNat 8 (v / 2 ^ (8 * i))

/-- R390: the shape descriptor. -/
def State.shapeOf (s : State) (g : Graph) (key dies : Nat) : List Byte :=
  let shape := s.dims.1 + s.dims.2.1 * 2 ^ 8 + s.dims.2.2 * 2 ^ 16 + dies * 2 ^ 32
  ([key % 256] ++ g.shape.map (·.toNat) ++ ((List.range (min g.nparam 32)).map fun i => (g.params.get 0 i).toNat) ++ [shape]).flatMap
    bytesOf

/-- R388 step 2: a graph phaser written afresh; its waiters are released with status 4. -/
def State.resetPhaser (s : State) (d h : Nat) (p : GPhaser) : State :=
  let l := Loc.sync d (h * 64)
  let on := fun (r : SyncReq) => r.loc == l && (waitsPhase r || waitsArrival r)
  let s := s.releaseWhere d on fun r => match r.op with
    | .pharv .. => fail 4
    | _ => 4
  s.setPhaser l { Phaser.zero with valid := true, ns := p.ns, nw := p.nw, nsw := p.nsw, exp := p.exp.toNat }

/-- The graph phasers of a die written afresh. -/
def State.resetPhasers (s : State) (d : Nat) (g : Graph) : State :=
  ((List.range g.phasers.length).zip g.phasers).foldl (fun s e => s.resetPhaser d (g.phbase + e.1) e.2) s

/-- R391: the mode of a stroke with a descriptor, chosen for the whole gang by the die of the pump. -/
def State.chooseMode (s : State) (origin asid : Nat) (desc : List Byte) (dies : List Nat) : StrokeMode :=
  let x := s.die origin
  if x.gmRpl && dies.all fun d => ((s.die d).traceOf asid desc).isSome then .replay
  else if x.gmRec then .record else .dynamic

/-- R397: the parts of a die taken up by the players that are free; the others wait. -/
def State.startPlayers (s : State) (d key : Nat) (parts : List TracePart) : State :=
  parts.foldl (fun s t =>
    if t.core = 0xFFFF then s
    else
      let s := s.modStroke d key fun r => { r with left := insertNat r.left t.core }
      if s.playerFree d t.core (key / 256) then s.modPlayer d t.core fun _ => Player.take key t
      else s.modStroke d key fun r => { r with todo := r.todo ++ [t] }) s

/-- A stroke starts on one die of the gang, in a mode that has been chosen. -/
def State.startOn (s : State) (d key : Nat) (r : Stroke) : State :=
  match s.graph d key with
  | none => s
  | some g =>
    let s := s.resetPhasers d g
    let s := s.modDie d fun x =>
      { x with graphs := x.graphs.set key { g with run := some r, pending := none }
               tokens := x.tokens.filter fun t => t != r.token
               cores := { entries := x.cores.entries.map fun e => (e.1, { e.2 with nfSeen := false }) }
               grGid := BitVec.ofNat 8 key, grAsid := BitVec.ofNat 12 (key / 256), grMode := r.mode, grStop := false, grKey := r.key
               traces := if r.mode = .replay then x.traces.map fun q =>
                   if q.asid = key / 256 && q.desc = r.desc then { q with used := s.clk } else q
                 else x.traces }
    let s := s.captureKey d r (if r.mode = .replay then (((s.die d).traceOf (key / 256) r.desc).map (·.parts)).getD [] else [])
    if r.mode = .replay then
      s.startPlayers d key ((((s.die d).traceOf (key / 256) r.desc).map (·.parts)).getD [])
    else
      let s := s.modStroke d key fun r => { r with calls := (g.indexed.filter fun e => !e.2.pure_).map (·.1) }
      s.installNodes d key

/-- R411, R471: the uploaded versions of a set, each in the place of the part of its core. -/
def TraceSet.renewed (q : TraceSet) : TraceSet :=
  { q with fresh := [], parts := q.fresh.foldl (fun ps f =>
      if ps.any fun p => p.core == f.core then ps.map fun p => if p.core = f.core then f else p else ps ++ [f]) q.parts }

/-- R411: the versions of the sets of a graph that a test admits, installed on every die together (log 63, DEDUCED). -/
def State.installVersions (s : State) (gkey : Nat) (ok : TraceSet → Bool) : State :=
  (s.graphDies gkey).foldl (fun s d => s.modDie d fun x =>
    { x with traces := x.traces.map fun q =>
        if q.asid = gkey / 256 && q.gid = gkey % 256 && ok q then q.renewed else q }) s

/-- R388: a stroke of a graph starts on every die of the gang: new trace versions, patches, phasers, token, key and mode, before
any task or entry of it. -/
def State.startStroke (s : State) (key : Nat) (patch : List (Nat × Word)) (token origin : Nat) : State :=
  let s := (s.installVersions key fun _ => true).modGraphs key fun g =>
    { g with params := patch.foldl (fun t p => t.set p.1 p.2) g.params }
  match s.graph origin key with
  | none => s
  | some g =>
    let dies := s.graphDies key
    let desc := s.shapeOf g key dies.length
    let mode := s.chooseMode origin (key / 256) desc dies
    let home := if mode = .replay then (((s.die origin).traceOf (key / 256) desc).map (·.home)).getD origin else origin
    let r : Stroke :=
      { token := token, mode := mode, key := (sha3 desc).setWidth 64, desc := desc, origin := origin, home := home }
    dies.foldl (fun s d => s.startOn d key r) s

/-- PENDING_STROKE_START (R387). -/
def execPendingStrokeStart (s : State) : Out :=
  match s.graph s.cur.die s.cur.id with
  | some { pending := some (patch, token, origin), run := none, .. } => .next (s.startStroke s.cur.id patch token origin)
  | _ => .next s

/-- TRACE_VERSION_INSTALL (R411, R471): the versions of one key, between two strokes (log 63, DEDUCED). -/
def execTraceVersionInstall (s : State) : Out :=
  if (s.stroke s.cur.die s.cur.id).isSome then .next s
  else .next (s.installVersions s.cur.id fun q => q.key == s.cur.val)

end Sys2Proof.Machine
end

