-- ==== Sys2Proof/Machine/Flags.lean ====
section
/-! DEFINITION. The conditions that words compute: this hardware has no flags register; a compare writes 1 or 0 to a
scalar register (R121, R123) and a branch tests a register (R130). -/

namespace Sys2Proof.Machine
open Sys2Proof

/-- R121: the six orders of CMPEQ to CMPLEN. -/
def condEq (a b : Word) : Bool := a == b
def condNe (a b : Word) : Bool := a != b
def condLt (a b : Word) : Bool := a.slt b
def condLe (a b : Word) : Bool := a.sle b
def condLtn (a b : Word) : Bool := a.ult b
def condLen (a b : Word) : Bool := a.ule b

/-- R130: the four conditions of a branch. -/
def condZero (a : Word) : Bool := a == 0
def condNonzero (a : Word) : Bool := a != 0
def condNegative (a : Word) : Bool := a.msb
def condNonnegative (a : Word) : Bool := !a.msb

end Sys2Proof.Machine
end

