-- ==== Sys2Proof/Machine/Control.lean ====
section
/-! DEFINITION. Control and the loop stack (class 0x3, R130–R134), and LIDX (R135). -/

namespace Sys2Proof.Machine
open Sys2Proof

/-- R130: a branch, taken under a condition (log 39, DEDUCED). -/
def State.branch (s : State) (taken : Bool) (f : BitVec 18) : Out :=
  .next (if taken then s.goto (s.target f) else s.next4)

/-- BZ (R130). -/
def execBz (a : BitVec 6) (f : BitVec 18) (s : State) : Out := s.branch (condZero (s.rx a)) f

/-- BNZ (R130). -/
def execBnz (a : BitVec 6) (f : BitVec 18) (s : State) : Out := s.branch (condNonzero (s.rx a)) f

/-- BLTZ (R130). -/
def execBltz (a : BitVec 6) (f : BitVec 18) (s : State) : Out := s.branch (condNegative (s.rx a)) f

/-- BGEZ (R130). -/
def execBgez (a : BitVec 6) (f : BitVec 18) (s : State) : Out := s.branch (condNonnegative (s.rx a)) f

/-- JMP (R130). -/
def execJmp (f : BitVec 18) (s : State) : Out := s.branch true f

/-- JAL (R130): the return address in x63, then the jump. -/
def execJal (f : BitVec 18) (s : State) : Out := .next ((s.wx 63 (s.me.pc + 4) 1).goto (s.target f))

/-- JR (R130, R68). -/
def execJr (a : BitVec 6) (s : State) : Out :=
  if (s.rx a).toNat % 4 ≠ 0 then s.raise causeMisalignedPc (s.rx a) 0 else .next (s.goto (s.rx a))

/-- R131: the entry of a new loop on the stack. -/
def Slot.pushLoop (x : Slot) (n : Nat) (dist : Word) : Slot :=
  let k := x.lsDepth
  { x with
    lsIdx := x.lsIdx.setIfInBounds k (BitVec.ofNat 64 (n * 2 ^ 32))
    lsTop := x.lsTop.setIfInBounds k (x.pc + 4)
    lsEnd := x.lsEnd.setIfInBounds k (x.pc + 4 * dist)
    lsDepth := k + 1 }

/-- R131: LOOP and LOOPI with their count and the distance to their ENDL. -/
def State.openLoop (s : State) (n : Nat) (dist : Word) : Out :=
  if n > 0xFFFFFFFF then s.raise causeLoopCount (BitVec.ofNat 64 n) 0
  else if n = 0 then .next (s.goto (s.me.pc + 4 * dist + 4))
  else if s.me.lsDepth ≥ 6 then s.raise causeLoopStack 0 0
  else .next ((s.upMe fun x => x.pushLoop n dist).next4)

/-- LOOP (R131). -/
def execLoop (a : BitVec 6) (e : BitVec 18) (s : State) : Out := s.openLoop (s.rx a).toNat (sext64 e)

/-- LOOPI (R131). -/
def execLoopi (c : BitVec 12) (e : BitVec 12) (s : State) : Out := s.openLoop c.toNat (zext64 e)

/-- The loop-nesting fault (R118). -/
def State.nesting (s : State) : Out := s.raise causeLoopNest (BitVec.ofNat 64 s.me.lsDepth) 0

/-- Entry k of LS.IDX: trip count and index (R112). -/
def loopCount (v : Word) : Nat := v.toNat / 2 ^ 32
def loopIndex (v : Word) : Nat := v.toNat % 2 ^ 32

/-- R38, R448: at a pre-emption point the slot stops when it has been asked to. -/
def State.preemptionPoint (s : State) : State :=
  s.upMe fun x => if x.stopAsked then { x with st := .ready, stopped := true, stopAsked := false } else x

/-- R38, R140, R141: a slot that yields and then waits at its word stops there when it has been asked to. -/
def State.preemptionWait (s : State) : State :=
  s.upMe fun x => if x.stopAsked then { x with stopped := true, stopAsked := false } else x

/-- ENDL (R132): a pre-emption point (R38). -/
def execEndl (s : State) : Out :=
  let x := s.me
  let k := x.lsDepth - 1
  if x.lsDepth = 0 || vget x.lsEnd k 0 != x.pc then s.nesting
  else
    let v := vget x.lsIdx k 0
    if loopIndex v + 1 < loopCount v then
      .next (((s.upMe fun x => { x with lsIdx := x.lsIdx.setIfInBounds k (v + 1) }).goto (vget x.lsTop k 0)).preemptionPoint)
    else .next (((s.upMe fun x => { x with lsDepth := k }).next4).preemptionPoint)

/-- BRKL (R133). -/
def execBrkl (s : State) : Out :=
  let x := s.me
  let k := x.lsDepth - 1
  if x.lsDepth = 0 then s.nesting
  else .next ((s.upMe fun x => { x with lsDepth := k }).goto (vget x.lsEnd k 0 + 4))

/-- LIDX (R135). -/
def execLidx (d : BitVec 6) (l : BitVec 10) (s : State) : Out :=
  let x := s.me
  if l.toNat > 5 then s.raise causeIllegal (zext64 (encode (.lidx d l))) 0
  else s.result d (if l.toNat < x.lsDepth then BitVec.ofNat 64 (loopIndex (vget x.lsIdx (x.lsDepth - 1 - l.toNat) 0)) else 0) 1

end Sys2Proof.Machine
end

