-- ==== Sys2Proof/Machine/System.lean ====
section
/-! DEFINITION. System and thread instructions of class 0x6 that reach the slot, its groups and its TLB (R136–R148). -/

namespace Sys2Proof.Machine
open Sys2Proof

/-! ### Traps and the return (R137, R138) -/

/-- A trap that returns past its word (R118). -/
def State.trapPast (s : State) (cause : Nat) (val : Word) : Out :=
  .next (s.trap { cause := cause, pc := s.me.pc + 4, val := val })

/-- TRAP (R137). -/
def execTrap (c : BitVec 10) (s : State) : Out := s.trapPast causeTrap (zext64 c)

/-- SYSC (R137). -/
def execSysc (c : BitVec 10) (s : State) : Out := s.trapPast causeSysc (zext64 c)

/-- BRKP (R137): it returns to itself. -/
def execBrkp (c : BitVec 10) (s : State) : Out := s.raise causeBrkp (zext64 c) 0

/-- The privilege trap (R107, R118). -/
def State.noPrivilege (s : State) (val : Word) : Out := s.raise causePrivilege val 0

/-- R107, R108: control registers that only privileged mode may write. -/
def csrPrivileged (n : BitVec 10) : Bool :=
  let v := n.toNat
  v < 2 || v == 0x010 || (0x018 ≤ v && v ≤ 0x01D) || (0x020 ≤ v && v ≤ 0x025) || (0x028 ≤ v && v ≤ 0x02D) ||
  (0x030 ≤ v && v ≤ 0x037) || v == 0x040 || (0x181 ≤ v && v ≤ 0x183) || v == 0x200 || v == 0x241 || v == 0x243 ||
  v == 0x245 || (0x280 ≤ v && v ≤ 0x282) || (0x301 ≤ v && v ≤ 0x303) || v == 0x381 || v == 0x382 ||
  (0x388 ≤ v && v ≤ 0x38D)

/-- ERET (R138). -/
def execEret (s : State) : Out :=
  let x := s.me
  if !x.priv then s.noPrivilege 0
  else if x.lsDepth ≠ x.trapDepth.toNat then s.nesting
  else if x.trapPc.toNat % 4 ≠ 0 then s.raise causeMisalignedPc x.trapPc 0
  else .next (s.upMe Slot.eret)

/-! ### Yielding (R140–R142) -/

/-- NOP (R140). -/
def execNop (s : State) : Out := .next s.next4

/-- R140, R38: the slot yields after its word; a slot that was asked to stop stops here. -/
def State.yieldNext (s : State) : State := (s.next4.upMe fun x => { x with st := .ready }).preemptionPoint

/-- YIELD (R140). -/
def execYield (s : State) : Out := .next s.yieldNext

/-- IDLE (R140): a pre-emption point, then BLOCKED at its word until the clk have passed; 0 yields only. -/
def execIdle (a : BitVec 6) (s : State) : Out :=
  let n := min (s.rx a).toNat (2 ^ 32 - 1)
  if n = 0 then .next s.yieldNext else .next (s.block (.idle (s.clk + n))).preemptionWait

/-- PARK (R141): a pre-emption point; the thread goes on when the future is full; else the slot is PARKED at its word (log 80, DEDUCED). -/
def execPark (a : BitVec 6) (s : State) : Out :=
  let va := s.rx a
  match region va with
  | .sync o =>
    if va.toNat % 16 != 0 || 2 ^ 30 < o + 16 || o < 0x400000 || !s.granted s.cur.die s.cur.core o then s.raise causeAccess va 0
    else if s.futureFull (.sync s.cur.die o) then .next s.yieldNext
    else .next (s.upMe fun x => { x with st := .parked, wait := .park o }).preemptionWait
  | _ => s.raise causeAccess va 0

/-- R142 step 1: the landing record performs at once, in increasing r and then in order. -/
def State.landRecord (s : State) : State :=
  let ls := s.me.lrec
  let order := (List.range 13).flatMap fun r => ls.filter fun l => l.due == r
  let s := s.upMe fun x => { x with lrec := [], armed := false }
  order.foldl (fun s l => s.performLanding s.cur.die s.cur.core { l with fromRec := true, sw := s.here.sw }) s

/-- EXIT (R142): the record lands, then the slot waits for its landings and loads (EXIT_FINISH). -/
def execExit (s : State) : Out :=
  let s := s.landRecord.block .exit
  .next (if s.me.lands.isEmpty && s.me.pend.isEmpty then s.freeSlot else s)

/-! ### Groups (R144–R146) -/

/-- R147: the thread id of a slot of a core. -/
def threadId (core slot : Nat) : Nat := core * 4 + slot + 1

/-- The thread of the slot that the step concerns. -/
def State.thread (s : State) : Nat := threadId s.cur.core s.cur.slot

/-- Groups that a thread belongs to. -/
def Die.groupsOf (x : Die) (t : Nat) : Nat := (x.groups.entries.filter fun e => e.2.members.any fun m => m.2 == t).length

/-- The lowest natural number that a list does not hold, searched over k numbers from i on. -/
def lowestFree (used : List Nat) (i : Nat) : Nat → Nat
  | 0 => i
  | k + 1 => if used.contains i then lowestFree used (i + 1) k else i

/-- R144: the id of a new group, one of the free ones (log 13, DESIGN CHOICE). -/
def Die.freeGroup (x : Die) (pick : Nat) : Nat :=
  let used := x.groups.entries.map (·.1)
  let free := ((List.range 4095).map (· + 1)).filter fun g => !used.contains g
  (free[pick % free.length]?).getD 1

/-- JOIN (R144) (log 43, DEDUCED). -/
def execJoin (d a : BitVec 6) (c : BitVec 1) (s : State) : Out :=
  let x := s.myDie
  let t := s.thread
  if c = 1 then
    if a ≠ 0 then s.raise causeIllegal (zext64 (encode (.join d a c))) 0
    else if 4095 ≤ x.groups.entries.length || 8 ≤ x.groupsOf t then s.result d 0 1
    else
      let g := x.freeGroup (Config.choice s.fresh)
      (s.stamp.upDie fun x => { x with groups := x.groups.set g { members := [(0, t)] } }).result d (BitVec.ofNat 64 g) 1
  else
    let g := (s.rx a).toNat
    match x.groups.find g with
    | none => s.result d 0 1
    | some gr =>
      if gr.members.any fun m => m.2 == t then s.result d (s.rx a) 1
      else if 8 ≤ x.groupsOf t then s.result d 0 1
      else
        let r := lowestFree (gr.members.map (·.1)) 0 gr.members.length
        (s.upDie fun x => { x with groups := x.groups.set g { members := assocSet gr.members r t } }).result d (s.rx a) 1

/-- R145: the members of a group of a die. -/
def Die.memberCount (x : Die) (g : Nat) : Nat := ((x.groups.find g).map (·.members.length)).getD 0

/-- LEAVE (R145) (log 43, DEDUCED). -/
def execLeave (d a : BitVec 6) (s : State) : Out :=
  let g := (s.rx a).toNat
  let s := s.upDie fun x => x.leave g (s.cur.core, s.cur.slot)
  s.result d (BitVec.ofNat 64 (s.myDie.memberCount g)) 1

/-- R146: distinct cores that host members. -/
def Group.cores (g : Group) : List Nat := g.members.foldl (fun l m => insertNat l ((m.2 - 1) / 4)) []

/-- GRPQ (R146). -/
def execGrpq (d a : BitVec 6) (q : BitVec 10) (s : State) : Out :=
  match s.myDie.groups.find (s.rx a).toNat with
  | none => s.result d 0 1
  | some g =>
    let v : Word := match q.toNat with
      | 0 => BitVec.ofNat 64 g.members.length
      | 1 =>
        match g.members.find? fun m => m.2 == s.thread with
        | some m => BitVec.ofNat 64 m.1
        | none => BitVec.allOnes 64
      | _ => BitVec.ofNat 64 g.cores.length
    s.result d v 1

/-- R147: what THID returns. -/
def State.threadInfo (s : State) (q : Nat) : Word :=
  let c := s.coords s.cur.die
  match q with
  | 0 => BitVec.ofNat 64 s.thread
  | 1 => BitVec.ofNat 64 (c.1 + c.2.1 * 2 ^ 8 + c.2.2 * 2 ^ 16 + s.pkg s.cur.die * 2 ^ 24)
  | 2 => if s.cur.core = 768 then 0x400 else BitVec.ofNat 64 (s.cur.core / 192 * 2 ^ 8 + s.cur.core % 192)
  | _ => zext64 s.here.ctx.asid

/-- THID (R147). -/
def execThid (d : BitVec 6) (q : BitVec 10) (s : State) : Out := s.result d (s.threadInfo q.toNat) 1

/-! ### The TLB (R148) -/

/-- R148: the entries that a TLBINV leaves. -/
def tlbKeeps (q : Nat) (a : Word) (asid : Nat) (p : Page) : Bool :=
  match q with
  | 0 => p.asid != a.toNat % 4096
  | 1 => !(p.asid == asid && p.va ≤ a.toNat && a.toNat < p.va + p.size)
  | _ => false

/-- What a finished walk has given to a slot and has not been used, after an invalidation of the TLB. -/
def Xlat.kept (keep : Page → Bool) (e : Xlat) : Bool := (e.page.map keep).getD true

/-- TLBINV (R148): the translations that finished walks have given to the slots of the core go with those of its TLB. -/
def execTlbinv (a : BitVec 6) (q : BitVec 10) (s : State) : Out :=
  if !s.me.priv then s.noPrivilege 0
  else
    .next (s.upHere fun k =>
      let keep := tlbKeeps q.toNat (s.rx a) k.ctx.asid.toNat
      { k with tlb := k.tlb.filter keep, slots := k.slots.map fun x => { x with xl := x.xl.filter (Xlat.kept keep) } }).next4

end Sys2Proof.Machine
end

