-- ==== Sys2Proof/Machine/Walks.lean ====
section
/-! DEFINITION. Walks, the hub and the TLBs (R441–R445, R148, R493), and accesses that translate without a slot. -/

namespace Sys2Proof.Machine
open Sys2Proof

/-! ### What a walk installs (R444) -/

/-- A page put into a list of at most `cap` pages: it replaces its own older entry, or some entry when the list is full
(log 9, DESIGN CHOICE). -/
def insertPage (cap pick : Nat) (ps : List Page) (p : Page) : List Page :=
  let ps := ps.filter fun q => !(q.asid == p.asid && q.va == p.va)
  (if cap ≤ ps.length then ps.eraseIdx (pick % ps.length) else ps) ++ [p]

/-- R444: the translation of an address by the hub of the die, or by a walk from a root. Which translations the hub still holds is
free: the spec gives its size and no rule for what it gives up (log 9, DESIGN CHOICE). -/
def State.hubWalk (s : State) (d c root va : Nat) : Walk :=
  match findPage (s.die d).hub (s.core d c).ctx.asid.toNat va with
  | some p => if Config.choice s.fresh % 2 = 1 then .page p else s.walk d c root va
  | none => s.walk d c root va

/-- R444: a successful walk is installed in the hub and in the TLB of the core. -/
def State.installPage (s : State) (d c : Nat) (p : Page) : State :=
  let pick := Config.victim s.fresh
  let s := s.stamp
  let s := s.modDie d fun x => { x with hub := insertPage 16384 pick x.hub p }
  s.modCore d c fun k => { k with tlb := insertPage 64 pick k.tlb p }

/-- R442, R488: the report of a table entry that could not be read. -/
def State.walkRecord (s : State) (d c va pa : Nat) (pc : Word) (slot action : Nat) : State :=
  s.record d { unit := unitOfCore c, kind := 0x03, action := action, asid := (s.core d c).ctx.asid.toNat
               range := some (pa, 8), d0 := pc, d1 := BitVec.ofNat 64 slot
               va := if va < 2 ^ 56 then some (BitVec.ofNat 64 va) else none }

/-- TRANSLATION_WALK_DONE (R436, R444): id holds XLT.ROOT as it was when the walk started; the waiting slot gets its translation, and tries its word again. A walk that XLT.INV
met delivers its result without installing it (R445) (log 60, DEDUCED). -/
def execTranslationWalkDone (s : State) : Out :=
  if s.me.wait ≠ .walk then .next s
  else if !s.myDie.rdy.getLsbD 20 then
    .next (s.later 1 { who := { s.cur with id := s.rootOf s.cur.die s.cur.core }, op := .translationWalkDone })
  else
    let va := s.cur.val.toNat
    let wake := fun (s : State) (p : Option Page) =>
      s.upMe fun x => { x with st := .ready, wait := .none, xl := x.xl ++ [{ va := va, page := p }] }
    let found := s.hubWalk s.cur.die s.cur.core s.cur.id va
    let s := s.stamp
    match found with
    | .page p => .next (wake (if s.cur.n = 1 then s else s.installPage s.cur.die s.cur.core p) (some p))
    | .fault => .next (wake s none)
    | .unreadable pa => .next (wake (s.walkRecord s.cur.die s.cur.core va pa s.me.pc s.cur.slot 3) none)

/-! ### Invalidation (R445) -/

/-- R445: the pages that an XLT.INV removes. -/
def invalidates (q va asid : Nat) (p : Page) : Bool :=
  match q with
  | 0 => p.asid == asid
  | 1 => p.asid == asid && p.va ≤ va && va < p.va + p.size
  | 2 => true
  | _ => false

/-- R445: the translations that a core and the words of its slots hold, without those that go. -/
def Core.forget (k : Core) (out : Page → Bool) : Core :=
  { k with tlb := k.tlb.filter fun p => !out p
           slots := k.slots.map fun x => { x with xl := x.xl.filter fun e => e.page.all fun p => !out p } }

/-- R445: a walk in flight matches: the page that it finds as the tables stand, or the least unit that holds its address (log 60,
DEDUCED). -/
def State.walkGoes (s : State) (out : Page → Bool) (w : Subject) : Bool :=
  let least : Page := { asid := (s.core w.die w.core).ctx.asid.toNat, va := w.val.toNat / 65536 * 65536, size := 65536, pa := 0
                        r := true, w := true, x := true, priv := false }
  let found := match s.walk w.die w.core w.id w.val.toNat with
    | .page p => out p
    | _ => false
  out least || found

/-- R445: a write of XLT.INV on a die. Walks in flight that match will not be installed. -/
def State.invalidate (s : State) (d q va asid : Nat) : State :=
  let out := invalidates q va asid
  let s := s.modDie d fun x =>
    { x with hub := x.hub.filter fun p => !out p
             cores := { entries := x.cores.entries.map fun e => (e.1, if e.1 = 768 then e.2 else e.2.forget out) } }
  { s with agenda := s.agenda.map fun e =>
      match e.2.op with
      | .translationWalkDone => if e.2.who.die == d && s.walkGoes out e.2.who then (e.1, { e.2 with who := { e.2.who with n := 1 } }) else e
      | _ => e }

/-- A written value of XLT.INV in its fields. -/
def State.writeXltInv (s : State) (d : Nat) (v : Word) : State :=
  s.invalidate d (v.toNat / 2 ^ 62) (v.toNat / 2 ^ 16 % 2 ^ 40 * 2 ^ 16) (v.toNat % 2 ^ 12)

/-- XLT.INV with Q = 0 (R445). -/
def execXltInvAsid (s : State) : Out := .next (s.invalidate s.cur.die 0 0 (s.cur.val.toNat % 2 ^ 12))

/-- XLT.INV with Q = 1 (R445). -/
def execXltInvAddr (s : State) : Out :=
  .next (s.invalidate s.cur.die 1 (s.cur.val.toNat / 2 ^ 16 % 2 ^ 40 * 2 ^ 16) (s.cur.val.toNat % 2 ^ 12))

/-- XLT.INV with Q = 2 (R445). -/
def execXltInvAll (s : State) : Out := .next (s.invalidate s.cur.die 2 0 0)

/-! ### Accesses that wait for their walk without a slot (R444) -/

/-- What an access of an engine or of the wellhead to a global address reaches. -/
inductive Reach where
  | at_ (l : Loc)
  /-- the translation fault -/
  | xlat
  /-- the access fault -/
  | access
  deriving DecidableEq, Repr

/-- The translation of an access made without a slot: the TLB, the hub, then a walk; with the machine that has installed
it. -/
def State.resolve (s : State) (a : Access) (va : Nat) : Option Page × State :=
  match s.pageOf a va with
  | .ok p => (some p, s)
  | .walk _ =>
    let found := s.hubWalk a.die a.core (s.rootOf a.die a.core) va
    let s := s.stamp
    match found with
    | .page p => (some p, s.installPage a.die a.core p)
    | .fault => (none, s)
    | .unreadable pa => (none, s.walkRecord a.die a.core va pa 0 0 2)
  | _ => (none, s)

/-- The place of a global address for an access made without a slot (R441–R443). -/
def State.reach (s : State) (a : Access) (va : Nat) (w : Rights) : Reach × State :=
  match s.resolve a va with
  | (none, s) => (.xlat, s)
  | (some p, s) =>
    if (w.r && !p.r) || (w.w && !p.w) || (w.x && !p.x) || (p.priv && !a.priv) then (.access, s)
    else
      match s.physical a.die a.core (p.pa + (va - p.va)) with
      | some l => (.at_ l, s)
      | none => (.access, s)

/-- n bytes of global memory, within one page, read without a slot; none when the read faults. -/
def State.readGlobal (s : State) (a : Access) (va n : Nat) : Option Nat × State :=
  if 2 ^ 56 < va + n then (none, s)
  else
    match s.reach a va rightsR with
    | (.at_ l, s) => (if s.bad l n then none else some (s.peek l n), s)
    | (_, s) => (none, s)

end Sys2Proof.Machine
end

