-- ==== Sys2Proof/Machine/Task.lean ====
section
/-! DEFINITION. Tasks, the wellhead, placement and deadlines (R143, R350–R365). -/

namespace Sys2Proof.Machine
open Sys2Proof

/-! ### The record (R350) -/

/-- R350: a record keeps its limits. -/
def recordOk (v : Nat) : Bool :=
  let f := fun (b n : Nat) => v / 2 ^ (8 * b) % 2 ^ (8 * n)
  let aff := f 46 2
  f 0 1 % 4 == 0 && f 44 1 < 128 && f 45 1 == 0 && aff / 2 ^ 12 == 0 && aff / 2 ^ 10 != 3 &&
  (aff / 2 ^ 10 != 2 || aff % 2 ^ 10 < 768) && f 48 2 < 1024 && f 52 2 < 256 && f 54 2 == 0 && f 56 8 % 64 == 0 &&
  f 56 8 < 2 ^ 56

/-- The record that 64 bytes describe. -/
def recordOf (v asid : Nat) : TaskRec :=
  { bits := BitVec.ofNat 512 v, st := .waiting, deps := v / 2 ^ 400 % 2 ^ 16, asid := asid }

/-- R446: a job is granted to a context; the command core holds every grant (log 14, DEDUCED). -/
def State.jobGranted (s : State) (d c j : Nat) : Bool := j < 256 && (c == 768 || (s.core d c).ctx.jobs.getLsbD j)

/-- R446: a deadline class is granted to a context (log 14, DEDUCED). -/
def State.classGranted (s : State) (d c n : Nat) : Bool := n < 64 && (c == 768 || (s.core d c).ctx.dlc.getLsbD n)

/-- R357: a push at the wellhead of a die, under the grants of a core: the handle or the failure. -/
def State.pushLocal (s : State) (d c v asid : Nat) : Word × State :=
  let t := recordOf v asid
  if !recordOk v || !s.jobGranted d c (t.field 52 2) then (fail 4, s)
  else if !(s.die d).hasRoom then (fail 1, s)
  else
    let r := s.installRec d t
    (BitVec.ofNat 64 r.1, r.2)

/-! ### Issue of the words of the wellhead (R259, R356, R493) -/

/-- A word of the wellhead waits for its readiness bit and for room among the 32 operations in flight. -/
def State.wellReady (s : State) (k : State → Out) : Out :=
  if !s.myDie.rdy.getLsbD 18 || 32 ≤ s.here.syncInFlight then s.hold else k s

/-- A result of a word of the wellhead, known at issue; it lands after a latency (R356). -/
def State.wellAnswer (s : State) (dest : Dest) (vals : List Word) (acquire : Bool) : State :=
  let id := s.ids
  (s.addPend { Pend.new dest with sync := true, answered := true, vals := vals, acquire := acquire }).landLater
    s.cur.die s.cur.core s.cur.slot id .syncResultLands

/-- A word of the wellhead that only answers. -/
def State.wellResult (s : State) (d : BitVec 6) (v : Word) : Out := .next (s.wellAnswer (.x d.toNat) [v] false).next4

/-! ### TKPUSH (R357) -/

/-- R357: the record that a TKPUSH names, in global memory or the own cistern. -/
def State.taskRecord (s : State) (a : Word) : Ans Nat :=
  if a.toNat % 64 != 0 then .trap causeAlign a 64
  else
    match region a with
    | .global => s.blockRead a 64 64
    | .own _ => s.blockRead a 64 64
    | _ => accessFault a.toNat rightsR

/-- The JOB field of a record as a remote push carries it (R357). -/
def pushJob (v : Nat) : Nat := (recordOf v 0).field 52 2

/-- R361: the counters of a job at the source of a remote push that ends: answered, or in error. -/
def State.pushEnds (s : State) (d j : Nat) (accepted : Bool) : State :=
  if 256 ≤ j then s
  else s.modDie d fun x => x.modJob j fun y =>
    { y with infl := y.infl - 1, sent := if accepted then y.sent else y.sent - 1 }

/-- R357: a remote push leaves through a window. -/
def State.pushRemote (s : State) (i : Instr) (d : BitVec 6) (a : Word) (w v : Nat) : State :=
  let j := pushJob v
  let r := { s.request i (.sync (s.winDie (s.here.win w)) 0) a 0 0 with win := some w, data := BitVec.ofNat 1024 v }
  let s := if 256 ≤ j then s
    else s.modDie s.cur.die fun x => x.modJob j fun y => { y with infl := y.infl + 1, sent := y.sent + 1 }
  let s := s.addPend { Pend.new (.x d.toNat) with sync := true }
  let p := s.packetOf s.cur.die s.cur.core w 0 (.sync r)
  s.inject { p with id := r.id, slot := r.slot, owner := r.id, pc := r.pc, addr := a, target := r.loc }

/-- TKPUSH (R357): a release at scope own die, or gang for a remote push. -/
def execTkpush (d a b : BitVec 6) (r : BitVec 1) (s : State) : Out :=
  let va := s.rx a
  let w := (s.rx b).toNat % 64
  (s.taskRecord va).run s fun v =>
    let s := s.captureRead va 64 64
    if r = 1 then
      let x := s.here.win w
      if !(x.valid && x.gang && x.kind == 2) then s.winFault (BitVec.ofNat 6 w)
      else if 32 ≤ s.here.syncInFlight then s.hold
      else s.release 3 fun s => .next (s.pushRemote (.tkpush d a b r) d va w v).next4
    else
      s.wellReady fun s => s.release 2 fun s =>
        let p := s.pushLocal s.cur.die s.cur.core v s.here.ctx.asid.toNat
        p.2.wellResult d p.1

/-- R357, R338: some core of a die runs an ASID; its grants are those of the push. -/
def State.hostOf (s : State) (d asid : Nat) : Option Nat :=
  if asid = 0 then some 768
  else ((s.die d).cores.entries.find? fun e => e.1 != 768 && s.runs d e.1 asid).map (·.1)

/-! ### TKPOP, TKDONE, TKPEEK, JCNT (R358–R361) -/

/-- R358: a task starts on a slot. -/
def State.startTask (s : State) (d : BitVec 6) (h : Nat) (t : TaskRec) : State :=
  let word := fun (b : Nat) => BitVec.ofNat 64 (t.field b 8)
  let ret := s.me.pc + 4
  let s := s.upHere fun k => { k with prefetch := k.prefetch.filter fun y => y != h }
  let s := s.upDie fun x => x.modRec h fun t => { t with st := .running, runner := some (s.cur.core, s.cur.slot) }
  let s := (s.wellAnswer (.x2 1 2) [word 8, word 16] true)
  let pend := fun (s : State) (dest : Dest) (vals : List Word) =>
    let id := s.ids
    (s.addPend { Pend.new dest with answered := true, vals := vals }).landLater
      s.cur.die s.cur.core s.cur.slot id .syncResultLands
  let s := pend (pend s (.x2 3 4) [word 24, word 32]) (.x2 63 d.toNat) [ret, BitVec.ofNat 64 h]
  let s := (s.upMe fun x => { x with task := some h, guards := 0 }).goto (word 0)
  s.note s.cur.die s.cur.core s.cur.slot fun node => { kind := .call, node := node }

/-- TKPOP (R358): an acquire at scope own die. -/
def execTkpop (d : BitVec 6) (w : BitVec 1) (s : State) : Out :=
  let wait := w == 1
  if s.me.task.isSome then s.wellReady fun s => s.wellResult d (fail 4)
  else
    match s.here.prefetch.head? with
    | none => if wait then s.hold else s.wellReady fun s => s.wellResult d (fail 2)
    | some h =>
      match s.myDie.recs.find h with
      | none => s.hold
      | some t => s.wellReady fun s => .next (s.startTask d h t)

/-- R359, R488: the report of a successor entry, or of a list, that could not be used (log 57, DEDUCED). -/
def State.successorFault (s : State) (d h e : Nat) : State :=
  s.record d { unit := 0x5000, kind := 0x24, d0 := BitVec.ofNat 64 (h + e * 2 ^ 16) }

/-- R359: the entries of a successor list from address a on, n of them; none when one of them cannot be read. -/
def State.successors (s : State) (x : Access) (a : Nat) : Nat → Option (List Nat) × State
  | 0 => (some [], s)
  | n + 1 =>
    match s.readGlobal x a 4 with
    | (none, s) => (none, s)
    | (some e, s) =>
      match s.successors x (a + 4) n with
      | (some es, s) => (some (e :: es), s)
      | r => r

/-- R359: the successor list of a record; none when it is unreadable. -/
def State.successorList (s : State) (x : Access) (a : Nat) : Option (List Nat) × State :=
  if a = 0 then (some [], s)
  else
    match s.readGlobal x a 4 with
    | (none, s) => (none, s)
    | (some n, s) => if 1023 < n then (none, s) else s.successors x (a + 4) n

/-- R359: a dependence of one successor met, or its entry reported; 1 where that queued the successor. -/
def State.releaseSuccessor (s : State) (d h e : Nat) : Nat × State :=
  match (s.die d).recs.find (e % 2 ^ 16) with
  | some t =>
    if e / 2 ^ 16 = 0 && t.st == .waiting then (if t.deps ≤ 1 then 1 else 0, s.modDie d fun x => x.satisfy e)
    else (0, s.successorFault d h e)
  | none => (0, s.successorFault d h e)

/-- R353, R359: a record is complete: its successors, its job, its handle; and how many successors were released. -/
def State.completeRec (s : State) (d h : Nat) (t : TaskRec) (x : Access) : Nat × State :=
  let l := s.successorList x (t.field 56 8)
  let r := match l.1 with
    | some es => es.foldl (fun (acc : Nat × State) e =>
        let y := acc.2.releaseSuccessor d h e
        (acc.1 + y.1, y.2)) (0, l.2)
    | none => (0, l.2.successorFault d h 0)
  (r.1, r.2.modDie d fun x => x.freeRec h)

/-- R397, R403: a node of a replayed stroke that runs as a call. -/
def State.isReplayCall (s : State) (d key : Nat) : Bool :=
  match s.stroke d key with
  | some r => r.mode == .replay || r.mode == .stopping
  | none => false

/-- R403: GUARD entries of a node in the part of a core. -/
def Player.guardsOf (p : Player) (node : Nat) : List TraceEntry :=
  ((p.part.map (·.entries)).getD []).filter fun e => e.kind == .guard && e.node == node

/-- R397: the call of a record has ended: the player that waits for it goes on, and so does one that a save holds. -/
def State.endCall (s : State) (d h : Nat) : State :=
  let s := ((s.die d).cores.entries.filter fun e => e.2.player.call == some h).foldl
    (fun s e => s.modPlayer d e.1 fun p => { p with call := none }) s
  { s with saves := { entries := s.saves.entries.map fun e =>
      (e.1, if e.2.die = d && e.2.player.call == some h then { e.2 with player := { e.2.player with call := none } } else e.2) } }

/-- R397, R403: the task of a call ends: unused GUARD entries start a guard stop, and the player goes on. -/
def State.callDone (s : State) (key node h : Nat) : State :=
  let d := s.cur.die
  let p := (((s.die d).cores.entries.find? fun e => e.2.player.call == some h).map fun e => e.2.player).getD s.here.player
  let stop := ((s.stroke d key).map fun r => r.mode == .replay).getD false && s.me.guards < (p.guardsOf node).length
  (if stop then s.guardStop d key else s).endCall d h

/-- R395, R403: what TKDONE of a node does beside completing its record. -/
def State.nodeTaskDone (s : State) (h : Nat) (t : TaskRec) : State :=
  match t.node with
  | none => s
  | some (key, node) =>
    let d := s.cur.die
    if s.isReplayCall d key then s.callDone key node h
    else
      let s := s.note d s.cur.core s.cur.slot fun node => { kind := .done, node := node }
      if (s.stroke d key).any fun (r : Stroke) => r.token == t.ctk then s.nodeDone d key node .done else s

/-- TKDONE (R359): a release at scope own die and a pre-emption point. -/
def execTkdone (d : BitVec 6) (s : State) : Out :=
  match s.me.task with
  | none => s.wellReady fun s => .next (s.wellAnswer (.x d.toNat) [fail 4] false).next4.preemptionPoint
  | some h =>
    s.wellReady fun s => s.release 2 fun s =>
      match s.myDie.recs.find h with
      | none => .next ((s.upMe fun x => { x with task := none }).wellAnswer (.x d.toNat) [0] false).next4.preemptionPoint
      | some t =>
        let s := s.nodeTaskDone h t
        let r := (s.upMe fun x => { x with task := none }).completeRec s.cur.die h t { s.access with xl := [] }
        .next (r.2.wellAnswer (.x d.toNat) [BitVec.ofNat 64 r.1] false).next4.preemptionPoint

/-- Queued records of a die (R355), and free ones. -/
def Die.queuedCount (x : Die) : Nat := (x.recs.entries.filter fun e => e.2.st == .queued).length
def Die.freeCount (x : Die) : Nat := 65536 - x.recs.entries.length

/-- R360: what TKPEEK reads. -/
def State.peekTasks (s : State) (q : Nat) (a : Word) : Word :=
  match q with
  | 0 => BitVec.ofNat 64 s.here.prefetch.length
  | 1 => match s.here.prefetch with
    | h :: _ => BitVec.ofNat 64 h
    | [] => fail 2
  | 2 => if a.toNat / 2 ^ 10 != 0 then fail 4 else BitVec.ofNat 64 (s.myDie.queues.get [] a.toNat).length
  | _ => BitVec.ofNat 64 s.myDie.freeCount

/-- TKPEEK (R360). -/
def execTkpeek (d a : BitVec 6) (q : BitVec 4) (s : State) : Out := s.result d (s.peekTasks q.toNat (s.rx a)) 1

/-- JCNT (R361). -/
def execJcnt (d a b : BitVec 6) (s : State) : Out :=
  s.wellReady fun s =>
    let j := (s.rx a).toNat
    let vals := if !s.jobGranted s.cur.die s.cur.core j then [fail 4, fail 4]
      else
        let x := s.myDie.jobs.get {} j
        [BitVec.ofNat 64 (x.out % 2 ^ 32 + x.infl % 2 ^ 32 * 2 ^ 32), BitVec.ofNat 64 (x.sent.toNat + x.recv.toNat * 2 ^ 32)]
    .next (s.wellAnswer (.x2 d.toNat b.toNat) vals false).next4

/-! ### RNGGET, SCHNXT (R363, R364, R399) -/

/-- R363: the size of a grant from a range. -/
def grantSize (next end_ : Nat) (b : Word) : Nat :=
  let chunk := b.toNat % 2 ^ 24
  let p := b.toNat / 2 ^ 32 % 2 ^ 16
  let rem := if next < end_ then end_ - next else 0
  min (min rem (max chunk ((rem + p - 1) / p))) (2 ^ 24 - 1)

/-- R363: the parameters of a grant keep their limits. -/
def grantOk (b : Word) : Bool :=
  b.toNat % 2 ^ 24 != 0 && b.toNat / 2 ^ 24 % 2 ^ 8 == 0 && b.toNat / 2 ^ 32 % 2 ^ 16 != 0 && b.toNat / 2 ^ 48 == 0

/-- R396, R471: a grant filed for the core of a call. -/
def State.fileGrant (s : State) (a g : Word) : State :=
  match s.nodeOf s.cur.die s.cur.core s.cur.slot with
  | some (key, _, _) =>
    s.modStroke s.cur.die key fun r =>
      { r with grants := r.grants.set s.cur.core (r.grants.get [] s.cur.core ++ [(a, g)]) }
  | none => s

/-- R363: a grant taken from a range record of the own die. -/
def State.grantDynamic (s : State) (l : Loc) (a b : Word) : Word × State :=
  let next := s.peek l 8
  let c := grantSize next (s.peek (l.plus 8) 8) b
  let g : Word := if c = 0 then 0 else BitVec.ofNat 64 (c * 2 ^ 40 + next)
  (g, ((s.poke l 8 (next + c)).snoop l).fileGrant a g)

/-- R399: a grant from the schedule section of the core's part, or the guard stop that its absence starts. -/
def State.grantReplayed (s : State) (l : Loc) (key : Nat) (a b : Word) : Word × State :=
  let p := s.here.player
  match (p.part.map (·.grants)).bind fun gs => gs[p.grant]? with
  | some (addr, g) =>
    if addr = a && p.gid = key then
      let s := s.modPlayer s.cur.die s.cur.core fun p => { p with grant := p.grant + 1 }
      (g, ((s.poke l 8 (s.peek l 8 + g.toNat / 2 ^ 40)).snoop l).fileGrant a g)
    else (s.guardStop s.cur.die key).grantDynamic l a b
  | none => (s.guardStop s.cur.die key).grantDynamic l a b

/-- RNGGET (R363, R399): it makes a work node a call. -/
def execRngget (d a b : BitVec 6) (s : State) : Out :=
  let va := s.rx a
  match region va with
  | .sync o =>
    if va.toNat % 16 != 0 then s.raise causeAlign va 16
    else if 2 ^ 30 < o + 16 || o < 0x400000 || !s.granted s.cur.die s.cur.core o then s.raise causeAccess va 1
    else
      s.syncReady s.cur.die none (some 2) fun s =>
        let s := s.becomeCall s.cur.die s.cur.core s.cur.slot
        let l := Loc.sync s.cur.die o
        if !grantOk (s.rx b) then s.wellResult d (fail 4)
        else if s.bad l 16 then
          ((s.taskFault s.cur.die s.cur.core s.cur.slot).syncUe s.cur.die l 16 s.here.ctx.asid.toNat
            (BitVec.ofNat 64 (s.cur.slot + s.me.pc.toNat * 4 % 2 ^ 62))).wellResult d (fail 7)
        else
          let r := match s.nodeOf s.cur.die s.cur.core s.cur.slot with
            | some (key, _, st) =>
              if st.mode == StrokeMode.replay && !st.gstop then s.grantReplayed l key va (s.rx b) else s.grantDynamic l va (s.rx b)
            | none => s.grantDynamic l va (s.rx b)
          r.2.wellResult d r.1
  | _ => s.raise causeAccess va 1

/-- SCHNXT (R364). -/
def execSchnxt (d a : BitVec 6) (s : State) : Out :=
  let va := s.rx a
  if va.toNat % 64 != 0 then s.raise causeAlign va 64
  else
    match region va with
    | .own o =>
      let part := s.here.part.scratch
      let n := s.here.cistern.readNat o 4
      let i := s.here.cistern.readNat (o + 4) 4
      if o < part.1 || part.2 < o + 64 then s.raise causeAccess va 1
      else
        (s.ownAccess o 64 rightsW).run s fun _ => (s.ownLoad va o 8).run s fun _ =>
          if part.2 < o + 64 + 8 * n then s.raise causeAccess va 1
          else if 32 ≤ s.here.syncInFlight then s.hold
          else if n ≤ i then s.wellResult d 0
          else
            let e := o + 64 + 8 * i
            (s.ownLoad (va + BitVec.ofNat 64 (64 + 8 * i)) e 8).run s fun v =>
              (s.store (.cistern s.cur.die s.cur.core (o + 4)) 4 (i + 1)).wellResult d (BitVec.ofNat 64 v)
    | _ => s.raise causeAccess va 1

/-! ### Deadlines (R365) -/

/-- What remains of a counter. -/
def Deadline.left (x : Deadline) (clk : Nat) : Nat := if x.armed then x.at_ - clk else 0

/-- DLSET (R365). -/
def execDlset (d a b : BitVec 6) (st : BitVec 1) (s : State) : Out :=
  s.wellReady fun s =>
    let c := (s.rx a).toNat
    let n := min (s.rx b).toNat (2 ^ 48 - 1)
    if !s.classGranted s.cur.die s.cur.core c then s.wellResult d (fail 4)
    else
      let old := (s.myDie.deadlines.get {} c).left s.clk
      let x : Deadline := if n = 0 then {} else { armed := true, at_ := s.clk + n, exp := false, stop := st == 1 }
      let s := s.upDie fun y => { y with deadlines := y.deadlines.set c x }
      let s := if n = 0 then s else s.later n { who := { die := s.cur.die, id := c }, op := .deadlineExpiry }
      s.wellResult d (BitVec.ofNat 64 old)

/-- DLCHK (R365). -/
def execDlchk (d a : BitVec 6) (s : State) : Out :=
  let c := (s.rx a).toNat
  let x := s.myDie.deadlines.get {} c
  s.result d (if !s.classGranted s.cur.die s.cur.core c then fail 4
    else BitVec.ofNat 64 (x.left s.clk + if x.exp then 2 ^ 63 else 0)) 1

/-- The kind under which a deadline event is posted (R365). -/
def kindDeadline : Nat := 0x101

/-- DEADLINE_EXPIRY (R365). -/
def execDeadlineExpiry (s : State) : Out :=
  let x := s.myDie.deadlines.get {} s.cur.id
  if x.armed && x.at_ ≤ s.clk then
    .next ((s.upDie fun y => { y with deadlines := y.deadlines.set s.cur.id { x with armed := false, exp := true } }).post
      s.cur.die kindDeadline (BitVec.ofNat 64 s.cur.id) 0)
  else .next s

/-! ### Placement and dispatch (R143, R352–R354) -/

/-- R354: the core that the dispatcher picks among those that a test admits, from a pointer on. -/
def Die.pick (x : Die) (ptr : Nat) (ok : Nat → Bool) : Option Nat :=
  let cands := (((List.range 768).map fun i => (ptr + i) % 768).filter ok).take (x.dispDev.toNat + 1)
  let weight := fun (c : Nat) => (x.core c).temp + (x.core c).droop
  cands.foldl (fun m c => match m with
    | none => some c
    | some b => if weight c < weight b then some c else some b) none

/-- R450, R493: a core is in no context switch, and its cluster is ready. -/
def State.open_ (s : State) (d c : Nat) : Bool := (s.core d c).switch.isNone && (s.die d).rdy.getLsbD (8 + c / 192)

/-- R352, R354: a core takes work of an ASID. -/
def State.takesWork (s : State) (d c asid : Nat) : Bool := s.runs d c asid && s.open_ d c

/-- R350: AFF admits a core. -/
def TaskRec.admits (t : TaskRec) (c : Nat) : Bool :=
  match t.aff / 2 ^ 10 % 4 with
  | 0 => true
  | 1 => c / 192 == t.aff / 2 ^ 8 % 4
  | _ => c == t.aff % 2 ^ 10

/-- R352, R365: the cores eligible for a record. -/
def State.eligible (s : State) (d : Nat) (t : TaskRec) (c : Nat) : Bool :=
  let dl := t.field 44 1
  let stopped := dl / 64 % 2 == 1 && (let x := (s.die d).deadlines.get {} (dl % 64); x.exp && x.stop)
  !stopped && t.admits c && s.takesWork d c t.asid && decide ((s.core d c).prefetch.length < 2)

/-- The first queued record of a queue, in a bank not yet used in this clk (a set of bits), that some core can take;
with the core (log 59, DEDUCED). -/
def State.dispatchable (s : State) (d q used : Nat) : Option (Nat × TaskRec × Nat) :=
  let x := s.die d
  (x.queues.get [] q).findSome? fun h =>
    match x.recs.find h with
    | none => none
    | some t =>
      if used / 2 ^ (h % 16) % 2 = 1 then none
      else (x.pick x.dispPtr (s.eligible d t)).map fun c => (h, t, c)

/-- R353: the record at the head of a queue that a set token discards, in a bank not yet used (log 59, DEDUCED). -/
def State.discardable (s : State) (d q used : Nat) : Option (Nat × TaskRec) :=
  let x := s.die d
  (x.queues.get [] q).head?.bind fun h => (x.recs.find h).bind fun t =>
    if t.ctk != 0 && x.tokens.contains t.ctk && used / 2 ^ (h % 16) % 2 == 0 then some (h, t) else none

/-- The queues of a priority in the order of their rotation (R352). -/
def Die.rotation (x : Die) (p : Nat) : List Nat :=
  let qs := (x.queues.entries.filter fun e => e.1 / 256 == p && !e.2.isEmpty).map (·.1)
  let last := vget x.served p 0
  (qs.filter fun q => last < q) ++ qs.filter fun q => q ≤ last

/-- What the wellhead of a die can do next. -/
inductive Dispatch where
  | discard (h : Nat) (t : TaskRec)
  | send (q h : Nat) (t : TaskRec) (core : Nat)
  deriving DecidableEq, Repr

/-- R352, R353: the next dispatch or discard of a die, with the banks already used in this clk (log 59, DEDUCED). -/
def State.nextDispatch (s : State) (d used : Nat) : Option Dispatch :=
  let x := s.die d
  if !x.rdy.getLsbD 18 then none
  else
    match x.queues.entries.findSome? fun e => s.discardable d e.1 used with
    | some (h, t) => some (.discard h t)
    | none =>
      [0, 1, 2, 3].findSome? fun p => (x.rotation p).findSome? fun q =>
        (s.dispatchable d q used).map fun r => .send q r.1 r.2.1 r.2.2

/-- R353: a discarded record acts as a TKDONE without a thread. -/
def State.discard (s : State) (d h : Nat) (t : TaskRec) : State :=
  let s := s.modDie d fun x => x.unqueue h
  let host := (s.hostOf d t.asid).getD 768
  let s := match t.node with
    | some (key, node) => if (s.stroke d key).any fun (r : Stroke) => r.token == t.ctk then s.nodeDone d key node .discarded else s
    | none => s
  (s.completeRec d h t { die := d, core := host, asid := t.asid, priv := false, xl := [] }).2

/-- R222, R408: an entry that the dynamic scheduler may write: of an unused tile, inside its partition, over bytes that no live tile
covers. -/
def Core.allocatable (k : Core) (n : Nat) (t : Tile) : Bool :=
  n < 256 && (k.tile n).size == 0 && t.size != 0 && k.part.admits t &&
  k.tiles.entries.all fun e => e.2.size == 0 || t.lo + t.bytes ≤ e.2.lo || e.2.lo + e.2.bytes ≤ t.lo

/-- R222, R393, R408, R447: the tile entries that the dispatch of a stroke's task sets on its core, at first sight and after a
hand-off (log 54, DESIGN CHOICE). -/
def State.allocate (s : State) (d c : Nat) (t : TaskRec) : State :=
  let dynamic := match t.node with
    | some (key, _) => (s.stroke d key).any fun (r : Stroke) => r.mode != .replay
    | none => false
  if !dynamic then s
  else
    ((Config.allocation s.fresh).foldl (fun s e => s.modCore d c fun k =>
      let y : Tile := { acc := e.2.1, base := e.2.2.1, size := e.2.2.2, state := if e.2.1 then .empty else .ready }
      if k.allocatable e.1 y then k.modTile e.1 fun _ => y else k) s).stamp

/-- The wellhead of a die has something to do by itself: an owed record that finds room, a dispatch or a discard. -/
def State.wellGoes (s : State) (d : Nat) : Bool :=
  ((s.die d).rdy.getLsbD 18 && (s.die d).hasRoom && !(s.die d).owing.isEmpty) || (s.nextDispatch d 0).isSome

/-- WELLHEAD_DISPATCH (R351, R352, R354): owed records enter; one record, and then the next in this clk from another bank (log 59, DEDUCED). -/
def execWellheadDispatch (s : State) : Out :=
  let d := s.cur.die
  let used := s.cur.n
  let s := if used = 0 then s.installOwed d else s
  let again := fun (s : State) (h : Nat) =>
    s.first [{ who := { die := d, n := used + (if used / 2 ^ (h % 16) % 2 = 1 then 0 else 2 ^ (h % 16)) }, op := .wellheadDispatch }]
  match s.nextDispatch d used with
  | none => .next s
  | some (.discard h t) => .next (again (s.discard d h t) h)
  | some (.send q h t c) =>
    let s := (s.allocate d c t).modDie d fun x =>
      let x := (x.unqueue h).modRec h fun t => { t with st := .prefetched }
      { x with served := x.served.setIfInBounds (q / 256) q, dispPtr := (c + 1) % 768 }
    .next (again (s.modCore d c fun k => { k with prefetch := k.prefetch ++ [h] }) h)

/-- Slots of a core that are FREE. -/
def Core.freeSlots (k : Core) : List Nat := (List.range 4).filter fun i => (k.slot i).st == .free && !(k.slot i).stopped

/-- A slot as a new thread begins on it (R22, R143, R175, R278): user mode, registers and views cleared, an empty loop stack.
What the device never writes of it stays: TRAP.SCR (R114), and the entries of the loop stack (R134). SEQ.CTL, INH and the
other TRAP registers get their reset values (log 85, DESIGN CHOICE). -/
def Slot.begun (x : Slot) (pc : Word) : Slot :=
  { x with
    st := .ready, wait := .none, pc := alignPc pc, x := Vector.replicate 64 0, lock := [], lateX := [], lateRow := []
    vw := Vector.replicate 8 0, inh := false, priv := false, dbgp := false, chkw := false, lrec := [], armed := false
    lsDepth := 0, trapPc := 0, trapCause := 0, trapVal := 0, trapInfo := 0, trapDepth := 0, trapPriv := false, bs := {}
    bar := {}, task := none, guards := 0, arrived := none, arrivedAt := 0, xl := [], stopAsked := false, stopped := false }

/-- A new thread on a slot of a core (R143). -/
def State.newThread (s : State) (d c i : Nat) (t : TaskRec) : State :=
  let word := fun (b : Nat) => BitVec.ofNat 64 (t.field b 8)
  s.modSlot d c i fun x =>
    [(1, word 8), (2, word 16), (3, word 24), (4, word 32), (5, BitVec.ofNat 64 (threadId c i))].foldl
      (fun x e => x.wx (BitVec.ofNat 6 e.1) e.2) (x.begun (word 0))

/-- R143, R354: a core of the die admits a thread of the spawner: one that runs its context; of the command core, any compute
core (log 58, DEDUCED). -/
def State.spawnable (s : State) (near : Bool) (c : Nat) : Bool :=
  let d := s.cur.die
  let k := s.core d c
  (s.cur.core == 768 || s.runs d c s.here.ctx.asid.toNat) && s.open_ d c && !k.freeSlots.isEmpty && (!near || s.cur.core == 768 || c / 192 == s.cur.core / 192)

/-- SPAWN (R143). -/
def execSpawn (d a : BitVec 6) (near : BitVec 1) (s : State) : Out :=
  s.readBlock (s.rx a) 64 64 fun s v =>
    let t := recordOf v 0
    if t.field 0 1 % 4 ≠ 0 then s.raise causeMisalignedPc (BitVec.ofNat 64 (t.field 0 8)) 0
    else
      match s.myDie.pick s.myDie.spawnPtr (s.spawnable (near == 1)) with
      | none => s.variable d 0 none
      | some c =>
        let free := (s.core s.cur.die c).freeSlots
        let i := (free[Config.choice s.fresh % free.length]?).getD 0
        let s := (s.stamp.upDie fun x => { x with spawnPtr := (c + 1) % 768 }).newThread s.cur.die c i t
        s.variable d (BitVec.ofNat 64 (threadId c i)) none

end Sys2Proof.Machine
end

