-- ==== Sys2Proof/Machine/Packets.lean ====
section
/-! DEFINITION. The steps of the fabric: hops, the target's part, replies, bounces and time limits (R297, R325, R331,
R338–R342). -/

namespace Sys2Proof.Machine
open Sys2Proof

/-! ### Hops (R325, R331) -/

def State.setPacket (s : State) (p : Packet) : State := { s with packets := s.packets.set p.id p }
def State.dropPacket (s : State) (id : Nat) : State := { s with packets := s.packets.erase id }

def isPush (k : PktKind) : Bool :=
  match k with
  | .sync r => (match r.op with | .tkpush .. => true | _ => false)
  | _ => false

/-- The step that a reply, an acknowledgement or a bounce makes at its source. -/
def Packet.homeStep (p : Packet) : Instr :=
  if p.reason ≠ 0 then .bounceReceived
  else if isPush p.kind then .remotePushReply
  else
    match p.kind with
    | .posted => .postedWriteAck
    | .flag => .postedWriteAck
    | .copyLine _ => .postedWriteAck
    | _ => .remoteReplyReceived

/-- R325: the other end of a link runs the opposite way. -/
def backDir (d : Nat) : Nat := if d % 2 = 0 then d + 1 else d - 1

/-- A packet put on a link: its flit waits in the replay buffer for the acknowledgement (R485; log 18, DESIGN CHOICE). -/
def State.putFlit (s : State) (p : Packet) (d : Nat) : State :=
  let s := s.modDie p.at_ fun x =>
    let l := vget x.links d {}
    { x with links := x.links.setIfInBounds d { l with flits := l.flits ++ [{ seq := l.seq, pkt := p }], seq := l.seq + 1 } }
  (s.later (1 + Config.latency s.fresh) { who := { die := p.at_, core := p.core, slot := p.slot, id := p.id, n := d }, op := .flitAck }).stamp

/-- A request turned back with a reason (R331). -/
def Packet.bounce (p : Packet) (code : Nat) : Packet := { p with back := true, reason := code + p.ridx * 2 ^ 16 }

/-- R331: a bounce or reply that meets a down link is dropped; a dropped bounce is reported. -/
def State.dropBack (s : State) (p : Packet) : State :=
  let s := s.dropPacket p.id
  if p.reason = 0 then s
  else s.record p.at_ { unit := 0x7000, kind := 0x12, d0 := BitVec.ofNat 64 p.reason, d1 := BitVec.ofNat 64 (p.win + p.core * 2 ^ 8) }

/-- PACKET_FORWARD (R331): the next hop of a packet, its arrival, or its bounce. -/
def execPacketForward (s : State) : Out :=
  match s.packets.find s.cur.id with
  | none => .next s
  | some p =>
    if p.back then
      match p.path with
      | [] => .next (s.soon (packetEv p p.homeStep))
      | (_, dir, vc) :: _ =>
        let d := backDir dir
        let p := { p with vc := vc }
        .next (if s.linkDown p.at_ d then s.dropBack p else s.putFlit p d)
    else
      let d := segDir p.route p.seg
      if d = 6 then .next (s.soon (packetEv p (if isPush p.kind then .remotePushArrive else .remoteRequestArrive)))
      else if s.linkDown p.at_ d then
        let q := p.bounce (reasonWord 6 p.seg p.hop)
        .next ((s.setPacket q).soon (packetEv q .packetForward))
      else .next (s.putFlit p d)

/-- A packet one hop further on, in the class that a dateline may have switched (R327, R328). -/
def State.hopped (s : State) (p : Packet) (d : Nat) : Packet :=
  let n := s.neighbour p.at_ d
  if p.back then { p with at_ := (p.path.head?.map (·.1)).getD n, path := p.path.tail }
  else
    let h : Hop := { seg := p.seg, hop := p.hop, dir := d, pos := s.pos p.at_ }
    let vc := if p.route.getLsbD 57 && h.crosses (s.fabTorus p.die) then 1 else p.vc
    let last := segCount p.route p.seg ≤ p.hop + 1
    { p with at_ := n, path := (p.at_, d, vc) :: p.path, vc := vc
             seg := if last then p.seg + 1 else p.seg, hop := if last then 0 else p.hop + 1 }

/-- FLIT_ACK (R485): the receiver has accepted a flit; flits are delivered in order. -/
def execFlitAck (s : State) : Out :=
  let d := s.cur.n
  let l := vget s.myDie.links d {}
  match l.flits with
  | [] => .next s
  | f :: rest =>
    if f.pkt.id ≠ s.cur.id then
      .next (if rest.any fun g => g.pkt.id == s.cur.id then s.later 1 { who := s.cur, op := .flitAck } else s)
    else if f.damaged then .next s
    else
      let p := s.hopped f.pkt d
      let s := s.upDie fun x => { x with links := x.links.setIfInBounds d { l with flits := rest } }
      .next ((s.setPacket p).soon (packetEv p .packetForward))

/-! ### The target's part (R338, R341) -/

/-- R247: the element type of a combining operation, and whether it takes the larger element. -/
def redOf (op : Nat) : EType × Bool :=
  match op with
  | 0 => (.f32, false)
  | 1 => (.f32, true)
  | 2 => (.bf16, false)
  | 3 => (.i32, false)
  | _ => (.n32, true)

/-- R247: the 64 bytes of a line combined element by element with those of another. -/
def combineLines (op old new : Nat) : Nat :=
  let t := (redOf op).1
  let w := t.w
  let f := if (redOf op).2 then t.maxLane else t.addLane
  rowOfLanesNat w ((List.range (64 / w)).map fun l => f (old / 2 ^ (8 * w * l) % 2 ^ (8 * w)) (new / 2 ^ (8 * w * l) % 2 ^ (8 * w)))

/-- A line of a copy performs at a place: written, or combined by operation `red - 1` (R238, R247). A line with an
uncorrectable error is not combined, and is reported as one that an operation met. -/
def State.copyWrite (s : State) (l : Loc) (red v core : Nat) : State :=
  if red = 0 then ((s.poke l 64 v).snoop l).countAt l 64
  else if s.bad l 64 then
    s.record (s.homeOf l s.cur.die)
      { unit := (match l with | .cistern _ c _ => unitOfCore c | _ => 0x4000), kind := 0x05, action := 2, range := l.span 64
        d0 := BitVec.ofNat 64 core }
  else ((s.poke l 64 (combineLines (red - 1) (s.peek l 64) v)).snoop l).countAt l 64

/-- R483: the report of a packet's write that left a unit uncorrectable at a die; it names the core that wrote. -/
def State.writeOverUe (s : State) (p : Packet) (d : Nat) : State :=
  let slot := (firstIndex (fun i => p.of i) 4).getD 0
  s.record d { unit := unitOfCore p.core, kind := 0x04, action := 2, range := p.target.cellSpan (p.cells 0)
               d0 := BitVec.ofNat 64 (slot + p.pc.toNat * 4 % 2 ^ 62) }

/-- A write of a packet performs: its masked bytes, in one line, as an agent's write (R483 applies to units written in part).
Copy lines count for the norm tracker (R310). -/
def State.performWrite (s : State) (p : Packet) : State :=
  match p.kind with
  | .copyLine (red + 1) => s.copyWrite p.target (red + 1) p.data.toNat p.core
  | _ =>
  match p.target with
  | .cistern d c o =>
    let cs := p.cells o
    let s := s.modCore d c fun k => { k with cistern := k.cistern.putCells unitSram cs }
    let s := if (s.core d c).cistern.cellsBad unitSram cs then s.writeOverUe p d else s
    match p.kind with
    | .copyLine _ => s.countCells 1 d c cs
    | _ => s
  | .sync d o =>
    let s := (s.modDie d fun x => { x with sync := x.sync.putCells unitSram (p.cells o) }).snoop p.target
    if (s.die d).sync.cellsBad unitSram (p.cells o) then s.writeOverUe p d else s
  | _ => s

/-- The packet goes back to its source. -/
def State.reply (s : State) (p : Packet) : State :=
  let p := { p with back := true }
  (s.setPacket p).soon (packetEv p .packetForward)

/-- The sequence of a packet at its target. -/
def Packet.isSeq (p : Packet) (q : SeqState) : Bool := q.die == p.die && q.core == p.core && q.win == p.win && q.gen == p.gen && q.cls == p.cls

def State.seqOf (s : State) (d : Nat) (p : Packet) : SeqState :=
  ((s.die d).seqs.find? p.isSeq).getD { die := p.die, core := p.core, win := p.win, gen := p.gen, cls := p.cls, next := 0 }

def State.setSeq (s : State) (d : Nat) (p : Packet) (q : SeqState) : State :=
  s.modDie d fun x => { x with seqs := (x.seqs.filter fun y => !p.isSeq y) ++ [q] }

/-- The held write with a sequence number. -/
def SeqState.heldAt (q : SeqState) (n : Nat) : Option Packet := (q.held.find? fun h => h.1.seq == n).map (·.1)

/-- R285: some remote load of a slot that has written into a posted write, issued before the write was opened and of its class,
has not performed: the write performs after it (log 92, DEDUCED). -/
def State.behindLoad (s : State) (p : Packet) : Bool :=
  (match p.kind with
    | .posted => true
    | _ => false) &&
  (List.range 4).any fun i => p.of i && s.loadOut p.die p.core i p.cls fun k => k < p.owner

/-- R341: the writes of a sequence that are next in order perform, at most k of them. -/
def State.runSeq (s : State) (d : Nat) (p : Packet) : Nat → State
  | 0 => s
  | k + 1 =>
    let q := s.seqOf d p
    match q.heldAt q.next with
    | none => s
    | some w =>
      if s.behindLoad w then s
      else
        let q' := { q with next := q.next + 1, held := q.held.filter fun h => h.1.id != w.id }
        let s := (s.setSeq d p q')
        ((if s.rejected w then s.reply (w.bounce (reasonWord 8 0 0)) else (s.performWrite w).reply w)).runSeq d p k

/-- FAB.TMO of the target of a packet (R341). -/
def State.targetTimeout (s : State) (p : Packet) : Nat :=
  match p.target with
  | .cistern d c _ => (s.core d c).timeout
  | _ => (s.core p.at_ 768).timeout

/-- The writes of a sequence go on; the first of them looks again in the next clk while a load holds it back, if it is the one
now looking, or has only now become the first. -/
def State.goSeq (s : State) (d : Nat) (p : Packet) : State :=
  let old := (s.seqOf d p).next
  let s := s.runSeq d p ((s.seqOf d p).held.length + 1)
  let q := s.seqOf d p
  match q.heldAt q.next with
  | some w => if w.id = p.id ∨ q.next ≠ old then s.later 1 (packetEv w .remoteRequestArrive) else s
  | none => s

/-- R341: a write of a sequence arrives: it is held for its turn, for a limited time. One that comes after its gap was given up
performs nowhere: it ends with reason 9 (log 94, DEDUCED). -/
def State.seqArrive (s : State) (p : Packet) : State :=
  let q := s.seqOf p.at_ p
  if q.held.any fun h => h.1.id == p.id then s.goSeq p.at_ p
  else if p.seq < q.next then s.reply (p.bounce (reasonWord 9 0 0))
  else
    let s := s.setSeq p.at_ p { q with held := q.held ++ [(p, s.clk)] }
    let s := s.goSeq p.at_ p
    if q.next < p.seq then s.later (s.targetTimeout p) (packetEv p .sequenceGapTimeout) else s

/-- The data of a remote load at its target, with the buffered bytes over them; poison of bytes that come from the target comes
late (R128, R188). -/
def State.loadReply (s : State) (p : Packet) (ps : List (Nat × Nat × Nat)) : State :=
  let bad := (partBytes ps).any fun i => !p.bytes.getLsbD i && s.bad (p.target.plus i) 1
  s.reply { p with data := mergeLine (BitVec.ofNat 512 (s.peek p.target 64)) p.data p.bytes
                   late := if bad then some { cause := causePoison, pc := p.pc, val := p.addr, info := 0 } else none }

/-- R285: a remote load waits at its target for the slot's earlier loads and posted writes of its class (log 92, DEDUCED). -/
def State.loadWaits (s : State) (p : Packet) : Bool :=
  s.writeOut p.die p.core p.slot p.cls p.owner || s.loadOut p.die p.core p.slot p.cls fun k => k < p.owner

/-- A line of an RCSNAP performs at its target (R282). -/
def State.snapReply (s : State) (p : Packet) : State :=
  let x := s.snapLine p.target p.data.toNat p.asid (BitVec.ofNat 64 (p.slot + p.pc.toNat * 4 % 2 ^ 62))
  x.1.reply { p with vals := [if x.2 then 7 else 0] }

/-- REMOTE_REQUEST_ARRIVE (R338, R341). -/
def execRemoteRequestArrive (s : State) : Out :=
  match s.packets.find s.cur.id with
  | none => .next s
  | some p =>
    let refused := s.reply (p.bounce (reasonWord 8 0 0))
    let again := s.later 1 (packetEv p .remoteRequestArrive)
    match p.kind with
    | .posted => .next (s.seqArrive p)
    | .flag => .next (s.seqArrive p)
    | .copyLine _ => .next (if s.rejected p then refused else (s.performWrite p).reply p)
    | .copyRead _ => .next (if s.rejected p then refused else s.loadReply p [(0, 64, 0)])
    | .load _ ps => .next (if s.loadWaits p then again else if s.rejected p then refused else s.loadReply p ps)
    | .sync r => .next (if s.rejected p then refused else if s.syncWaits p.target then again else s.homeSync { r with loc := p.target })
    | .snap => .next (if s.rejected p then refused else if s.syncWaits p.target then again else s.snapReply p)
    | .arrival n _ =>
      if s.rejected p then .next refused
      else if s.syncWaits p.target then .next again
      else
        match p.target with
        | .sync d o => .next ((s.sendArrival d (o / 64) n).reply p)
        | _ => .next (s.reply p)
    | .gang _ _ _ => .next (s.reply p)

/-- A write that a die holds for its turn, whether or not its source still waits for it. -/
def State.heldWrite (s : State) (d id : Nat) : Option Packet :=
  (s.die d).seqs.findSome? fun q => (q.held.find? fun h => h.1.id == id).map (·.1)

/-- SEQUENCE_GAP_TIMEOUT (R341): the held writes perform without the missing one, and the gap is reported with reason 9, a write
that has not come (R488) (log 94, DEDUCED). -/
def execSequenceGapTimeout (s : State) : Out :=
  match s.heldWrite s.cur.die s.cur.id with
  | none => .next s
  | some p =>
    let d := s.cur.die
    let q := s.seqOf d p
    if q.next < p.seq && (q.held.any fun h => h.1.id == p.id && h.2 + s.targetTimeout p ≤ s.clk) then
      let low := q.held.foldl (fun m h => min m h.1.seq) p.seq
      let s := s.record d { unit := 0x7000, kind := 0x12, d0 := BitVec.ofNat 64 (reasonWord 9 0 0)
                            d1 := BitVec.ofNat 64 (p.win + p.core * 2 ^ 8) }
      let s := (s.setSeq d p { q with next := low, lost := q.lost ++ [q.next] }).goSeq d p
      .next (if (s.seqOf d p).next ≤ p.seq then s.later 1 (packetEv p .sequenceGapTimeout) else s)
    else .next s

/-! ### Back at the source (R331, R340, R342) -/

/-- The request is no longer outstanding. -/
def State.endAwait (s : State) (p : Packet) : State :=
  (s.modCore p.die p.core fun k => { k with awaits := k.awaits.filter fun a => a.pkt.id != p.id }).dropPacket p.id

/-- A request still awaits its reply at its source: late replies are discarded (R331). -/
def State.awaited (s : State) (p : Packet) : Bool := (s.core p.die p.core).awaits.any fun a => a.pkt.id == p.id

/-- R340: a unit of a window returned. -/
def State.returnUnit (s : State) (p : Packet) : State :=
  s.modCore p.die p.core fun k => k.modWin p.win fun w => { w with out := w.out - 1 }

/-- The first error of a window (R342). -/
def State.windowError (s : State) (p : Packet) : State :=
  s.modCore p.die p.core fun k => k.modWin p.win fun w => if w.err then w else { w with err := true, reason := p.reason }

/-- The remote error that waits for the first reader of a load or atomic (R342). -/
def Packet.remoteTrap (p : Packet) : LateTrap :=
  { cause := causeRemote, pc := p.pc, val := p.addr, info := BitVec.ofNat 64 p.reason }

/-- R249: the first fault of a copy, with the line that it names. -/
def Run.failIf (r : Run) (b : Bool) (code : Nat) (a : Word) : Run :=
  if b && r.fault = 0 then { r with fault := code, bad := some (a, 64) } else r

/-- R340, R342: a copy line has ended, with or without an error. -/
def State.lineEnded (s : State) (p : Packet) : State :=
  (s.returnUnit p).modRun p.die p.core p.owner fun r => { r.failIf (p.reason ≠ 0) 0x54 p.addr with acks := r.acks - 1 }

/-- R282, R342: a line of an RCSNAP has ended: status 7 when it met an uncorrectable error, or the remote error. -/
def State.snapEnded (s : State) (p : Packet) : State :=
  let s := s.modPend p.die p.core p.slot p.owner fun q =>
    { q with left := q.left - 1, answered := q.left ≤ 1
             vals := if p.reason ≠ 0 then [] else if p.vals = [7] && !q.vals.isEmpty then [7] else q.vals
             late := if p.reason ≠ 0 then some p.remoteTrap else q.late }
  match s.findPend p.die p.core p.slot p.owner with
  | some q => if q.answered then s.landLater p.die p.core p.slot p.owner .syncResultLands else s
  | none => s

/-- R240, R185: an arrival at a phaser behind a window has ended: a copy waits for one less, and ends with code 0x54
after an error; of a VSTA, an error is one of the window. -/
def State.arrivalEnded (s : State) (p : Packet) (copy : Bool) : State :=
  if !copy then (if p.reason = 0 then s else s.windowError p)
  else
    s.modRun p.die p.core p.owner fun r => { r.failIf (p.reason ≠ 0) 0x54 p.addr with acks := r.acks - 1 }

/-- R185: the arrivals of VSTAs that follow a posted write which has ended in error are not delivered (log 89, DESIGN
CHOICE). -/
def State.loseArrivals (s : State) (p : Packet) : State :=
  s.dropArrivals p.die p.core fun a => a.cls == p.cls && a.gates.contains (p.win, p.seq)

/-- R347: the flag write of a FENCEF has ended: the slot goes on, or takes the remote error. -/
def State.flagEnded (s : State) (p : Packet) : State :=
  let s := s.returnUnit p
  let who := s.cur
  let s := s.as { die := p.die, core := p.core, slot := p.slot }
  let s := s.upMe fun x => { x with pend := x.pend.filter fun q => q.id != p.id }
  let s :=
    if s.me.wait ≠ .answer p.id then s
    else if p.reason = 0 then s.upMe Slot.proceed
    else
      (s.upMe fun x => { x with st := .ready, wait := .none }).trap
        { cause := causeRemote, pc := s.me.pc, val := BitVec.ofNat 64 p.win, info := BitVec.ofNat 64 p.reason }
  s.as who

/-- A request has ended in error: a bounce, a rejection, a failed check or a time limit. -/
def State.endInError (s : State) (p : Packet) : State :=
  if !s.awaited p then s.dropPacket p.id
  else
    let s := s.endAwait p
    match p.kind with
    | .posted => ((s.returnUnit p).windowError p).loseArrivals p
    | .flag => (s.windowError p).flagEnded p
    | .copyLine _ => s.lineEnded p
    | .arrival _ copy => s.arrivalEnded p copy
    | .snap => s.snapEnded p
    | .copyRead _ =>
      s.modRun p.die p.core p.owner fun r => { r.failIf true 0x54 p.addr with acks := r.acks - 1 }
    | .load g ps => s.deliver p.die p.core p.slot p.owner g ps 0 (some p.remoteTrap)
    | .sync r =>
      let s := if isPush p.kind then s.pushEnds p.die (pushJob r.data.toNat) false else s
      (s.modPend p.die p.core p.slot r.id fun q => { q with answered := true, vals := [], late := some p.remoteTrap }).landLater
        p.die p.core p.slot r.id .syncResultLands
    | .gang _ _ _ => s

/-- POSTED_WRITE_ACK (R340). -/
def execPostedWriteAck (s : State) : Out :=
  match s.packets.find s.cur.id with
  | none => .next s
  | some p =>
    if !s.awaited p then .next (s.dropPacket p.id)
    else
      let s := s.endAwait p
      match p.kind with
      | .flag => .next (s.flagEnded p)
      | .copyLine _ => .next (s.lineEnded p)
      | _ => .next (s.returnUnit p)

/-- REMOTE_REPLY_RECEIVED (R325). -/
def execRemoteReplyReceived (s : State) : Out :=
  match s.packets.find s.cur.id with
  | none => .next s
  | some p =>
    if !s.awaited p then .next (s.dropPacket p.id)
    else
      let s := s.endAwait p
      match p.kind with
      | .load g ps => .next (s.deliver p.die p.core p.slot p.owner g ps p.data p.late)
      | .sync r =>
        .next ((s.modPend p.die p.core p.slot r.id fun q => { q with answered := true, vals := p.vals, late := p.late }).landLater
          p.die p.core p.slot r.id .syncResultLands)
      | .arrival _ copy => .next (s.arrivalEnded p copy)
      | .snap => .next (s.snapEnded p)
      | .copyRead k =>
        .next (s.modRun p.die p.core p.owner fun r =>
          match p.late with
          | some _ => { r.failIf true 0x53 p.addr with acks := r.acks - 1 }
          | none => { r with acks := r.acks - 1, lines := if r.fault = 0 then r.lines ++ [(k, p.data.toNat)] else r.lines })
      | _ => .next s

/-- R338, R357: a remote push at the wellhead of its target, under the grants of a context there. -/
def execRemotePushArrive (s : State) : Out :=
  match s.packets.find s.cur.id with
  | none => .next s
  | some p =>
    match p.kind, s.hostOf p.at_ p.asid with
    | .sync _, none => .next (s.reply (p.bounce (reasonWord 8 0 0)))
    | .sync r, some c =>
      if !(s.die p.at_).rdy.getLsbD 18 then .next (s.later 1 (packetEv p .remotePushArrive))
      else
        let x := s.pushLocal p.at_ c r.data.toNat p.asid
        let t := recordOf r.data.toNat p.asid
        let s := if x.1.toNat < 2 ^ 32 then x.2.modDie p.at_ fun y => y.modJob t.job fun j => { j with recv := j.recv + 1 } else x.2
        .next (s.reply { p with vals := [x.1] })
    | _, _ => .next s

/-- REMOTE_PUSH_REPLY (R357): the counters of the job, and the handle or the refusal. -/
def execRemotePushReply (s : State) : Out :=
  match s.packets.find s.cur.id with
  | none => .next s
  | some p =>
    if !s.awaited p then .next (s.dropPacket p.id)
    else
      let s := s.endAwait p
      match p.kind with
      | .sync r =>
        let s := s.pushEnds p.die (pushJob r.data.toNat) (p.vals.all fun v => v.toNat < 2 ^ 32)
        .next ((s.modPend p.die p.core p.slot r.id fun q => { q with answered := true, vals := p.vals, late := p.late }).landLater
          p.die p.core p.slot r.id .syncResultLands)
      | _ => .next s

/-- BOUNCE_RECEIVED (R331, R342). -/
def execBounceReceived (s : State) : Out :=
  match s.packets.find s.cur.id with
  | none => .next s
  | some p => .next (s.endInError p)

/-- FAB_TIMEOUT (R331): the request ends with reason 9. -/
def execFabTimeout (s : State) : Out :=
  match s.here.awaits.find? fun a => a.pkt.id == s.cur.id with
  | none => .next s
  | some a => if s.clk < a.until_ then .next s else .next (s.endInError (a.pkt.bounce (reasonWord 9 0 0)))

/-- COMBINING_DRAIN_TIMEOUT (R297): the entry drains, after the older ones of its window and class. -/
def execCombiningDrainTimeout (s : State) : Out :=
  match s.here.comb.find? fun e => e.id == s.cur.id with
  | none => .next s
  | some e => .next (s.drainWhere s.cur.die s.cur.core fun x => x.win == e.win && x.cls == e.cls && x.id ≤ e.id)

end Sys2Proof.Machine
end

