-- ==== Sys2Proof/Machine/Copy.lean ====
section
/-! DEFINITION. The copy engine: when copies leave the queue and start, how their lines move, and how they end
(R232–R250). -/

namespace Sys2Proof.Machine
open Sys2Proof

/-! ### Copies in flight (R232, R239) -/

/-- A run of the copy engine of a core. -/
def Core.copyRun (k : Core) (id : Nat) : Option Run := k.cpy.flight.find? fun r => r.cmd.id == id

/-- The instruction of a queued copy. -/
def copyInstr (x : Cmd) : Instr :=
  match decodeTemplate .cpy x.t with
  | .ok i => i
  | .error _ => .nop

/-- R232: the command at the head of the copy queue acts in this clk: a CPYX, or a copy that takes an in-flight slot. -/
def Core.copyHead (k : Core) (clk : Nat) : Option Cmd :=
  match k.cpy.queue with
  | [] => none
  | x :: _ =>
    if k.closed || clk ≤ x.at_ then none
    else if templateOp x.t = 8 then some x
    else if k.cpy.flight.length < 48 then some x
    else none

/-- R239, R450: a copy in its in-flight slot starts in this clk. -/
def Core.copyStarts (k : Core) (r : Run) (clk : Nat) : Bool :=
  r.stage == 0 && r.cmd.at_ < clk && !k.closed && !k.heldBack r.cmd.id clk

/-- The step that concerns a copy. -/
def copyEv (d c id n : Nat) (op : Instr) : Ev := { who := { die := d, core := c, id := id, n := n }, op := op }

/-- COPY_DEQUEUE (R232): the head of the queue takes an in-flight slot, and starts when nothing holds it back; a CPYX acts.
The next command follows in the same clk. -/
def execCopyDequeue (s : State) : Out :=
  match s.here.copyHead s.clk with
  | none => .next s
  | some x =>
    if templateOp x.t = 8 then
      .next (s.first [copyEv s.cur.die s.cur.core x.id 0 (copyInstr x), { who := s.cur, op := .copyDequeue }])
    else
      let s := s.upHere fun k =>
        { k with cpy := { k.cpy with queue := k.cpy.queue.filter fun y => y.id != x.id
                                     flight := k.cpy.flight ++ [{ cmd := x, start := 0, laneFree := 0, done := 0 }] } }
      .next (s.first [copyEv s.cur.die s.cur.core x.id 0 (copyInstr x), { who := s.cur, op := .copyDequeue }])

/-- R235: a copy that an agent other than a slot issues, with its descriptor; none while it must wait, and the code of
the fault where a slot would trap. -/
def State.agentCopy (s : State) (i : Instr) (c : Cmd) : Except Nat (Option Cmd) :=
  match Sys2Proof.Machine.copyHead i with
  | none => .ok (some c)
  | some (dt, off, xsel, a, follows) =>
    let k := s.here
    match k.descAt dt off with
    | none => .error 0x52
    | some o =>
      if k.held o 64 false then .ok none
      else if k.cistern.poisoned unitSram o 64 then .error 0x53
      else
        let d := replaceEnd (BitVec.ofNat 512 (k.cistern.readNat o 64)) xsel a
        let e := k.entry .mat (descXarg d % 64)
        if !k.copyAllows dt d || (follows && !e.loading.isEmpty) then .ok none
        else .ok (some { c with desc := d, follow := if follows then e.t else 0 })

/-! ### Lines and their addresses (R234, R241, R245, R246) -/

/-- XARG[2:0] of a CPYR as a combining operation, one more than its code; 0 for a plain write (R247). -/
def Cmd.red (x : Cmd) : Nat := if templateOp x.t = 7 then descXarg x.desc % 8 + 1 else 0

/-- Blocks of a row of a CPYC (R245). -/
def Cmd.rowBlocks (x : Cmd) : Nat := (descRowb x.desc / 4 + 61) / 62

/-- Lines that a copy moves for each row, and in all. -/
def Cmd.rowLines (x : Cmd) : Nat := if templateOp x.t = 5 then x.rowBlocks else descRowb x.desc / 64
def Cmd.lineCount (x : Cmd) : Nat := descRows x.desc * x.rowLines

/-- An address a number of bytes further on, forwards or back. -/
def addrPlus (a : Word) (n : Int) : Word := a + BitVec.ofInt 64 n

/-- R246: the signed index of a row, from the list in the own cistern. -/
def Core.copyIndex (k : Core) (x : Cmd) (i : Nat) : Int :=
  (BitVec.ofNat 32 (k.cistern.readNat ((ownOffset (descAux x.desc)).getD 0 + 4 * i) 4)).toInt

/-- The source address of a line, and its destination address. -/
def Core.copySrc (k : Core) (x : Cmd) (n : Nat) : Word :=
  let i := n / x.rowLines
  addrPlus (descSrc x.desc)
    ((if templateOp x.t = 6 then k.copyIndex x i else i) * descSstr x.desc + (64 * (n % x.rowLines) : Nat))
def Cmd.dst (x : Cmd) (n : Nat) : Word :=
  addrPlus (descDst x.desc) ((n / x.rowLines : Nat) * descDstr x.desc + (64 * (n % x.rowLines) : Nat))

/-! ### Ends (R237) -/

/-- Where a line is read or written. -/
inductive CopyEnd where
  | loc (l : Loc)
  | win (w o : Nat)
  deriving DecidableEq, Repr

/-- R237: a line of the own cistern is a source, or a destination, of a copy. -/
def Core.ownLine (k : Core) (x : Cmd) (o : Nat) (writes : Bool) : Bool :=
  if !writes then k.part.scratch.1 ≤ o && o + 64 ≤ 2 ^ 20
  else if descTt x.desc then (k.tile (descTtile x.desc)).covers o 64
  else k.part.scratch.1 ≤ o && o + 64 ≤ k.part.scratch.2

/-- R237: a line of a core's scratch partition that a copy of another core of the die may touch. -/
def State.peerLine (s : State) (d c core o : Nat) : Bool :=
  let k := s.core d core
  s.runs d core (s.core d c).ctx.asid.toNat && k.part.scratch.1 ≤ o && o + 64 ≤ k.part.scratch.2

/-- R237, R249: the place of a line at an end, or the code of the fault that it meets. -/
def State.copyEnd (s : State) (d c : Nat) (x : Cmd) (va : Word) (w : Rights) : Except Nat CopyEnd × State :=
  let need := fun (b : Bool) (e : CopyEnd) => ((if b then .ok e else .error 0x52 : Except Nat CopyEnd), s)
  match region va with
  | .global =>
    match s.reach { die := d, core := c, asid := (s.core d c).ctx.asid.toNat, priv := x.priv, xl := [] } va.toNat w with
    | (.at_ l, s) => (.ok (.loc l), s)
    | (.xlat, s) => (.error 0x51, s)
    | (.access, s) => (.error 0x52, s)
  | .own o => need ((s.core d c).ownLine x o w.w) (.loc (.cistern d c o))
  | .peer p o ver => need (c != 768 && !ver && s.peerLine d c (peerCore c p) o) (.loc (.cistern d (peerCore c p) o))
  | .window n o => need (s.winOk ((s.core d c).win n) o 64 false false w.w) (.win n o)
  | .const o => need (!w.w && o + 64 ≤ 2 ^ 16) (.loc (.const o))
  | _ => need false (.loc (.const 0))

/-- The ends of a line's destination: every core of a CPYM, or the one that DST names. -/
def State.copyEnds (s : State) (d c : Nat) (r : Run) (n : Nat) : Except Nat (List CopyEnd) × State :=
  let x := r.cmd
  if templateOp x.t = 2 then
    let o := (ownOffset (x.dst n)).getD (2 ^ 20)
    let ok := r.hosts.all fun h => if h = c then (s.core d c).ownLine x o true else s.peerLine d c h o
    ((if ok then .ok (r.hosts.map fun h => .loc (.cistern d h o)) else .error 0x52), s)
  else
    match s.copyEnd d c x (x.dst n) (if x.red = 0 then rightsW else rightsRW) with
    | (.ok e, s) => (.ok [e], s)
    | (.error f, s) => (.error f, s)

/-! ### The descriptor's limits (R234, R237, R242, R247, R440) -/

/-- Rows of n bytes at offset o, a stride apart, lie between two offsets. -/
def copyRows (o n rows : Nat) (stride : Int) (lo hi : Nat) : Bool :=
  let last : Int := (o : Int) + ((rows - 1 : Nat) : Int) * stride
  decide ((lo : Int) ≤ min (o : Int) last) && decide (max (o : Int) last + n ≤ hi)

/-- R242: the cores of a die that host a member of a group. -/
def Die.groupCores (x : Die) (g : Nat) : List Nat :=
  ((x.groups.find g).map fun gr => gr.members.foldl (fun l m => insertNat l ((m.2 - 1) / 4)) []).getD []

/-- R234, R241: XARG and AUX of an opcode. -/
def Cmd.argsOk (x : Cmd) : Bool :=
  let a := descXarg x.desc
  let aux := descAux x.desc
  match templateOp x.t with
  | 2 => a < 4096 && aux == 0
  | 3 => a < 64 && aux == 0
  | 4 => a == 0 && aux.toNat % 64 == 0
  | 5 => a == 0
  | 6 => a == 0
  | 7 => a < 5 && aux == 0
  | _ => a == 0 && aux == 0

/-- R234: a destination phaser: none, a handle line of the own die, or one through a window of KIND 2, in the grant. -/
def State.dphOk (s : State) (d c : Nat) (a : Word) : Bool :=
  let line := fun (o : Nat) => o % 64 == 0 && 64 ≤ o && o < 0x400000 && s.granted d c o
  a == 0 || match region a with
    | .sync o => line o
    | .window w o =>
      let x := (s.core d c).win w
      s.winOk x o 64 false true false && (match s.winLoc x o with
        | .sync _ t => line t
        | _ => false)
    | _ => false

/-- R234: the limits of the fields themselves. -/
def Cmd.fieldsOk (x : Cmd) : Bool :=
  let d := x.desc
  let b := descRowb d
  let n := descRows d
  descF d 0 8 % 64 == 0 && descF d 8 8 % 64 == 0 && b % 64 == 0 && 64 ≤ b && b ≤ 2 ^ 24 && 1 ≤ n && n ≤ 65536 &&
  descF d 24 8 % 64 == 0 && descF d 32 8 % 64 == 0 && descF d 40 1 < 64 && descF d 44 4 == 0 && x.argsOk

/-- R222, R237: the destination tile of a copy with TT. -/
def Core.ttileOk (k : Core) (x : Cmd) : Bool :=
  let t := k.tile (descTtile x.desc)
  !descTt x.desc || (t.size != 0 && k.part.admits t)

/-- The span of n rows of b bytes from an address on, a stride apart: its first address, and its bytes. -/
def copySpan (a : Word) (n b : Nat) (stride : Int) : Word × Nat :=
  let last := ((n - 1 : Nat) : Int) * stride
  (addrPlus a (min 0 last), b + last.natAbs)

/-- Bytes of a row that a copy writes (R234, R245). -/
def Cmd.rowOut (x : Cmd) : Nat := 64 * x.rowLines

/-- R237: the rows at an end of a copy lie where that end may lie, as far as the descriptor gives them: for a CPYM at the own
core. The rows of a CPYG's source are known only with their indices, and the pages of global memory with their translation. -/
def State.rowsOk (s : State) (d c : Nat) (x : Cmd) (writes : Bool) : Bool :=
  let k := s.core d c
  let op := templateOp x.t
  let n := descRows x.desc
  let b := if writes then x.rowOut else descRowb x.desc
  let st := if writes then descDstr x.desc else descSstr x.desc
  let known := writes || op != 6
  let scr := k.part.scratch
  let t := k.tile (descTtile x.desc)
  match region (if writes then descDst x.desc else descSrc x.desc) with
  | .own o =>
    !known || (if !writes then copyRows o b n st scr.1 (2 ^ 20)
      else if descTt x.desc then copyRows o b n st t.lo (t.lo + t.bytes)
      else copyRows o b n st scr.1 scr.2)
  | .peer p o ver =>
    let scr := (s.core d (peerCore c p)).part.scratch
    op != 5 && (writes || !ver) && c != 768 && !ver && (!known || (s.runs d (peerCore c p) k.ctx.asid.toNat && copyRows o b n st scr.1 scr.2))
  | .window w o =>
    (writes || op != 5) && (!known || (List.range n).all fun i =>
      let a := (o : Int) + (i : Int) * st
      decide (0 ≤ a) && s.winOk (k.win w) a.toNat b false false writes)
  | .const o => !writes && op != 5 && (!known || copyRows o b n st 0 (2 ^ 16))
  | .global => writes || op != 5
  | _ => false

/-- R242: the destinations of a CPYM: the group has a member, and at every core that hosts one the rows may be written. -/
def State.groupRowsOk (s : State) (d c : Nat) (x : Cmd) : Bool :=
  let hosts := (s.die d).groupCores (descXarg x.desc)
  let o := (ownOffset (descDst x.desc)).getD (2 ^ 20)
  !hosts.isEmpty && o < 2 ^ 20 && hosts.all fun h =>
    if h = c then s.rowsOk d c x true
    else
      let scr := (s.core d h).part.scratch
      s.runs d h (s.core d c).ctx.asid.toNat && copyRows o x.rowOut (descRows x.desc) (descDstr x.desc) scr.1 scr.2

/-- R244–R246: AUX of a copy lies where its opcode takes it from (for a CPYT the place of a task record, R357). -/
def Core.auxOk (k : Core) (x : Cmd) : Bool :=
  let n := descRows x.desc
  let b := descRowb x.desc
  let scr := k.part.scratch
  match templateOp x.t, region (descAux x.desc) with
  | 4, .own o => copyRows o 64 1 0 scr.1 (2 ^ 20)
  | 4, .global => true
  | 4, _ => false
  | 5, .own o => copyRows o b n b scr.1 scr.2
  | 5, _ => false
  | 6, .own o => copyRows o (4 * n) 1 0 scr.1 (2 ^ 20)
  | 6, _ => false
  | _, _ => true

/-- Bytes that AUX names. -/
def Cmd.auxBytes (x : Cmd) : Nat :=
  match templateOp x.t with
  | 4 => 64
  | 5 => descRows x.desc * descRowb x.desc
  | _ => 4 * descRows x.desc

/-- R238, R249: the check of a copy at its start: the limits of R234, R237 and R247, the group of R242, and the handles of
R440; the range that the first failing one concerns (log 62, DEDUCED). -/
def State.copyBad (s : State) (d c : Nat) (x : Cmd) : Option (Word × Nat) :=
  let e := x.desc
  let dst := copySpan (descDst e) (descRows e) x.rowOut (descDstr e)
  let handle := fun (h : Nat) => (BitVec.ofNat 64 (0xFFFF040000000000 + h * 64), 64)
  let checks : List (Bool × Word × Nat) :=
    [(x.fieldsOk, dst), (s.handleOk d c (cphOf x.t), handle (cphOf x.t)), (s.dphOk d c (descDph e), (descDph e, 64)),
     ((s.core d c).ttileOk x, dst), (s.rowsOk d c x false, copySpan (descSrc e) (descRows e) (descRowb e) (descSstr e)),
     (if templateOp x.t = 2 then s.groupRowsOk d c x else s.rowsOk d c x true, dst),
     ((s.core d c).auxOk x, (descAux e, x.auxBytes))]
  (checks.find? fun k => !k.1).map (·.2)

/-! ### The end of a copy by a fault or a cancellation (R248, R249) -/

/-- VER of the destination tile of an all-or-nothing copy that is open changes (R225). -/
def State.copyVer (s : State) (d c : Nat) (x : Cmd) : State :=
  if descAon x.desc && descTt x.desc then s.modCore d c fun k => k.modTile (descTtile x.desc) fun t => { t with ver := t.ver + 1 }
  else s

/-- A copy leaves its in-flight slot. -/
def State.dropRun (s : State) (d c id : Nat) : State :=
  s.modCore d c fun k => { k with cpy := { k.cpy with flight := k.cpy.flight.filter fun r => r.cmd.id != id } }

/-- R248: a copy has stopped: VER closes, TTILE empties, and its ranges are released. -/
def State.copyStops (s : State) (d c : Nat) (r : Run) : State :=
  let s := if r.stage = 1 then s.copyVer d c r.cmd else s
  (s.dropRun d c r.cmd.id).modCore d c fun k => k.endCmd r.cmd.id s.clk true

/-- R488: the range of a copy's fault: its physical bytes, or for a place that has no physical address its device-local ones (log
95, DEDUCED). -/
def State.copyRange (s : State) (d c : Nat) (x : Cmd) (bad : Word × Nat) : Option (Nat × Nat) :=
  match region bad.1 with
  | .global =>
    match (s.copyEnd d c x bad.1 {}).1 with
    | .ok (.loc l) => l.span bad.2
    | _ => none
  | .none => none
  | _ => some (bad.1.toNat, bad.2)

/-- R248: the CPYXs whose copies have all stopped complete, with 0 bytes. -/
def State.cancelsEnd (s : State) (d c : Nat) : State :=
  let k := s.core d c
  let finished := fun (e : Nat × List Nat) => e.2.all fun id => (k.copyRun id).isNone
  (k.cpy.cancels.filter finished).foldl (fun s e => s.sendArrival d e.1 0)
    (s.modCore d c fun k => { k with cpy := { k.cpy with cancels := k.cpy.cancels.filter fun e => !finished e } })

/-- R248, R249: a copy that meets a fault or is cancelled moves nothing more. It ends when its lines and arrivals on the way have
performed: CPH in error, and a report that names the range. -/
def State.copyFault (s : State) (d c : Nat) (r : Run) (code : Nat) (bad : Word × Nat) : State :=
  let x := r.cmd
  if r.acks ≠ 0 then
    s.modRun d c x.id fun y =>
      { y with lines := [], fault := if y.fault = 0 then code else y.fault, bad := if y.fault = 0 then some bad else y.bad }
  else
    let h := cphOf x.t
    let reached := h != 0 && s.handleOk d c h
    let range := s.copyRange d c x bad
    let s := s.copyStops d c r
    let s := if reached then s.sendError d h code else s
    (s.commandRecord d c code x (if descTt x.desc then [descTtile x.desc] else []) reached range
      (if region bad.1 = .global && !s.identity d c then some bad.1 else none)).cancelsEnd d c

/-- The fault that a copy has met ends it (R249). -/
def State.copyFails (s : State) (d c : Nat) (r : Run) : State :=
  if r.acks ≠ 0 then s else s.copyFault d c r r.fault (r.bad.getD (descDst r.cmd.desc, 64))

/-! ### CPYC: the encoding (R245) -/

/-- The FP32 elements of a row of n at o. -/
def Core.f32List (k : Core) (o n : Nat) : List Fp := (List.range n).map fun j => fp32.decode (k.cistern.readNat (o + 4 * j) 4)

/-- R245: a row of elements with residuals: the blocks and the new residuals as FP32 codes. -/
def encodeRow (g e : List Fp) : List Nat × List Nat :=
  let y := (g.zip e).map fun p => fadd fp32 .rne p.1 p.2
  let f := BFmt.flt e4m3
  let blocks := encodeBlocks 3 f .rne false (y.map fun v => (v, 0))
  (blocks, ((List.range y.length).zip y).map fun p =>
    if p.2.nonFinite then 0
    else fp32.encode (fadd fp32 .rne p.2 (blkVal f ((blocks[p.1 / 62]?).getD 0) (p.1 % 62)).negate))

/-- R245: row i of a CPYC encoded in place, or poison met. -/
def State.encodeCopyRow (s : State) (d c : Nat) (x : Cmd) (i : Nat) : Option State :=
  let k := s.core d c
  let b := descRowb x.desc
  let so := (((ownOffset (descSrc x.desc)).getD 0 : Nat) + (i : Int) * descSstr x.desc).toNat
  let ro := (ownOffset (descAux x.desc)).getD 0 + i * b
  if k.cistern.poisoned unitSram so b || k.cistern.poisoned unitSram ro b then none
  else
    let r := encodeRow (k.f32List so (b / 4)) (k.f32List ro (b / 4))
    let s := s.enginePut d c ro b (rowOfLanesNat 4 r.2) false
    some (s.enginePut d c so (x.rowBlocks * 64) (rowOfLanesNat 64 r.1) false)

/-- R245: rows from i on encoded, n of them; the row at which poison stopped it. -/
def State.encodeCopy (s : State) (d c : Nat) (x : Cmd) (i : Nat) : Nat → State × Option Nat
  | 0 => (s, none)
  | n + 1 =>
    match s.encodeCopyRow d c x i with
    | some s => s.encodeCopy d c x (i + 1) n
    | none => (s, some i)

/-! ### Lines move (R238, R239, R247) -/

/-- A run of the core changed. -/
def State.upRun (s : State) (d c id : Nat) (f : Run → Run) : State := s.modRun d c id f

/-- R239: all ends of a copy lie in the own cistern. -/
def Run.ownEnds (r : Run) (c : Nat) : Bool :=
  let d := r.cmd.desc
  (ownOffset (descSrc d)).isSome && (ownOffset (descDst d)).isSome && r.hosts.all fun h => h == c

/-- R238: own-cistern source and destination ranges of a copy overlap. -/
def Core.copyOverlaps (k : Core) (x : Cmd) : Bool :=
  let span := fun (es : List (Bool × Nat × Nat × Bool)) => es.map fun e => (e.2.1, e.2.1 + e.2.2.1)
  let n := descRows x.desc
  let src := match ownOffset (descSrc x.desc) with
    | some o => if templateOp x.t = 6 then [(k.part.scratch.1, 2 ^ 20)] else span (rowsRange o n (descRowb x.desc) (descSstr x.desc) false)
    | none => []
  let dst := match ownOffset (descDst x.desc) with
    | some o => span (rowsRange o n x.rowOut (descDstr x.desc) true)
    | none => []
  src.any fun a => dst.any fun b => decide (a.1 < b.2) && decide (b.1 < a.2)

/-- The source lines of a copy as they stand: none for a poisoned one, or one outside the cistern. -/
def Core.sourceLines (k : Core) (x : Cmd) : List (Option Nat) :=
  (List.range x.lineCount).map fun n =>
    match ownOffset (k.copySrc x n) with
    | some o => if k.cistern.poisoned unitSram o 64 then none else some (k.cistern.readNat o 64)
    | none => none

/-- A line written through a window: its posted write, with its sluice unit (R237, R340). -/
def State.copyPost (s : State) (d c : Nat) (r : Run) (w o v : Nat) : State :=
  let cls := descClass r.cmd.desc
  let p := s.packetOf d c w o (.copyLine r.cmd.red)
  let s := (s.modCore d c fun k => k.modWin w Window.unit).upRun d c r.cmd.id fun r => { r with acks := r.acks + 1 }
  s.newId.inject { p with cls := cls, data := BitVec.ofNat 512 v, bytes := BitVec.allOnes 64, owner := r.cmd.id, addr := winAddr w o }

/-- R238: line n written at every end of its destination; it waits while a window has no sluice unit. -/
def State.writeLine (s : State) (d c : Nat) (r : Run) (n v : Nat) : State :=
  let taken := fun (s : State) (m : Nat) =>
    s.upRun d c r.cmd.id fun r => { r with lines := r.lines.filter fun l => l.1 != n, bytes := r.bytes + 64 * m }
  match s.copyEnds d c r n with
  | (.error f, s) => s.copyFault d c r f (r.cmd.dst n, 64)
  | (.ok [.win w o], s) =>
    if ((s.core d c).win w).free = 0 then s else (taken s 1).copyPost d c r w o v
  | (.ok es, s) =>
    es.foldl (fun s e => match e with
      | .loc l => s.copyWrite l r.cmd.red v c
      | .win _ _ => s) (taken s es.length)

/-- R238: line n read: into the copy, or as a request through a window. -/
def State.readLine (s : State) (d c : Nat) (r : Run) (n : Nat) : State :=
  let x := r.cmd
  let k := s.core d c
  let va := k.copySrc x n
  let next := fun (s : State) (f : Run → Run) => s.upRun d c x.id fun r => f { r with cmd := { r.cmd with pos := n + 1 } }
  if templateOp x.t = 6 && k.cistern.poisoned unitSram ((ownOffset (descAux x.desc)).getD 0 + 4 * (n / x.rowLines)) 4 then
    s.copyFault d c r 0x53 (descAux x.desc + BitVec.ofNat 64 (4 * (n / x.rowLines)), 4)
  else
    match s.copyEnd d c x va rightsR with
    | (.error f, s) => s.copyFault d c r f (va, 64)
    | (.ok (.win w o), s) =>
      let p := s.packetOf d c w o (.copyRead n)
      (next s fun r => { r with acks := r.acks + 1 }).newId.inject
        { p with cls := descClass x.desc, owner := x.id, addr := winAddr w o }
    | (.ok (.loc l), s) =>
      let got := if r.src.isEmpty then (if s.bad l 64 then none else some (s.peek l 64)) else (r.src[n]?).getD none
      match got with
      | none => s.copyFault d c r 0x53 (va, 64)
      | some v => next (s.captureHost d l 64) fun r => { r with lines := r.lines ++ [(n, v)] }

/-- R239: the cistern port moves line n of a copy: out of the own cistern, and into it. -/
def Core.lineOut (k : Core) (r : Run) (n : Nat) : Bool := (ownOffset (k.copySrc r.cmd n)).isSome
def Run.lineIn (r : Run) (c n : Nat) : Bool :=
  if templateOp r.cmd.t = 2 then r.hosts.contains c else (ownOffset (r.cmd.dst n)).isSome

/-- R239: a line read, or written, with the port marked as used in this clk where it lies in the own cistern. -/
def State.portRead (s : State) (d c : Nat) (r : Run) (n : Nat) : State :=
  let s := if (s.core d c).lineOut r n then s.modCore d c fun k => { k with cpy := { k.cpy with portOut := s.clk } } else s
  s.readLine d c r n
def State.portWrite (s : State) (d c : Nat) (r : Run) (l : Nat × Nat) : State :=
  let s := if r.lineIn c l.1 then s.modCore d c fun k => { k with cpy := { k.cpy with portIn := s.clk } } else s
  s.writeLine d c r l.1 l.2

/-- R239: a clk of a copy whose ends lie in the own cistern: line k is read in clk s + k and performs in clk s + k + 2, with the
port or without it (log 61, DEDUCED). -/
def State.ownClk (s : State) (d c id : Nat) : State :=
  match (s.core d c).copyRun id with
  | none => s
  | some r =>
    let t := s.clk - r.start
    let s := match r.lines.find? fun l => l.1 + 2 == t with
      | some l => s.portWrite d c r l
      | none => s
    match (s.core d c).copyRun id with
    | some r => if t < r.cmd.lineCount && r.fault = 0 then s.portRead d c r t else s
    | none => s

/-- The waiting line of a copy written, unless it has to wait for the port. -/
def State.freeWrite (s : State) (d c id : Nat) : State :=
  match (s.core d c).copyRun id with
  | none => s
  | some r => match r.lines.head? with
    | none => s
    | some l => if r.lineIn c l.1 && (s.core d c).cpy.portIn = s.clk then s else s.portWrite d c r l

/-- R239: a clk of a copy with other ends, whose lines move from a free clk on (log 4, DESIGN CHOICE): a waiting line is
written, or one line read and written, where the cistern port is free in the direction (log 61, DEDUCED). -/
def State.freeClk (s : State) (d c id : Nat) : State :=
  match (s.core d c).copyRun id with
  | none => s
  | some r =>
    let n := r.cmd.pos
    if s.clk < r.done then s
    else if !r.lines.isEmpty then s.freeWrite d c id
    else if r.cmd.lineCount ≤ n || ((s.core d c).lineOut r n && (s.core d c).cpy.portOut = s.clk) then s
    else (s.portRead d c r n).freeWrite d c id

/-- One clk of a copy that has started (R239) (log 61, DEDUCED). -/
def State.copyClk (s : State) (d c : Nat) (r : Run) : State :=
  if r.fault != 0 then s.copyFails d c r
  else if r.ownEnds c then s.ownClk d c r.cmd.id
  else s.freeClk d c r.cmd.id

/-- R229, R244: the scoreboard of a core without the read ranges of a copy that have been read to the end. That of a CPYT's task
record, its last entry, stays until the push. -/
def Core.copyReadEntries (k : Core) (x : Cmd) : List SbEntry :=
  let mine := k.sb.filter fun e => e.cmd == x.id && !e.writes
  if templateOp x.t = 4 && (ownOffset (descAux x.desc)).isSome then mine.dropLast else mine

/-- R229: the read ranges of a copy released. -/
def Core.freeCopyReads (k : Core) (x : Cmd) (clk : Nat) : Core :=
  let out := k.copyReadEntries x
  let rest := (k.sb.filter fun e => e.cmd == x.id && !e.writes).drop out.length
  if out.isEmpty then k
  else { k with sb := (k.sb.filter fun e => !(e.cmd == x.id && !e.writes)) ++ rest
                sbFreed := (clk, out.length + if k.sbFreed.1 = clk then k.sbFreed.2 else 0) }

/-- R229: the read ranges of copies that have read their last line, released at the end of a clk. -/
def Core.copyReads (k : Core) (clk : Nat) : Core :=
  (k.cpy.flight.filter fun r => r.stage == 1 && r.cmd.lineCount ≤ r.cmd.pos).foldl (fun k r => k.freeCopyReads r.cmd clk) k

/-! ### Start (R238, R239) -/

/-- A copy starts: its check, its group, VER, and for a CPYC the encoding. The lines of a copy with an end elsewhere move in later
clk. -/
def State.copyStart (s : State) (d c : Nat) (r : Run) : State :=
  let x := r.cmd
  match s.copyBad d c x with
  | some bad => s.copyFault d c r 0x52 bad
  | none =>
    let k := s.core d c
    let hosts := if templateOp x.t = 2 then (s.die d).groupCores (descXarg x.desc) else []
    let s := s.copyVer d c x
    let enc := if templateOp x.t = 5 && !x.staged then s.encodeCopy d c x 0 (descRows x.desc) else (s, none)
    let s := enc.1
    let src := if k.copyOverlaps x then (s.core d c).sourceLines x else []
    let r := { r with start := s.clk, stage := 1, hosts := hosts, src := src
                      cmd := { x with staged := templateOp x.t == 5, pos := 0 } }
    let own := r.ownEnds c
    let r := { r with done := s.clk + (if own then x.lineCount + 2 else 1 + Config.latency s.fresh) }
    let s := s.stamp.upRun d c x.id fun _ => r
    match enc.2 with
    | some i => s.copyFault d c r 0x53 (addrPlus (descSrc x.desc) (i * descSstr x.desc), descRowb x.desc)
    | none => if own then (s.later (x.lineCount + 2) (copyEv d c x.id 0 .copyComplete)).copyClk d c r else s

/-- What CPY to CPYR do: their start (n = 0) and each later clk of theirs (R238). -/
def State.copyStep (s : State) : Out :=
  let d := s.cur.die
  let c := s.cur.core
  match s.here.copyRun s.cur.id with
  | none => .next s
  | some r =>
    if r.stage = 0 then .next (if s.here.copyStarts r s.clk then s.copyStart d c r else s)
    else if r.stage = 1 && s.cur.n = 1 then .next (s.copyClk d c r)
    else .next s

/-- CPY (R238). -/
def execCpy (_cph : BitVec 16) (_dt : BitVec 8) (_off : BitVec 16) (_xsel : BitVec 2) (_xaddr : BitVec 64) (s : State) : Out :=
  s.copyStep

/-- CPYM (R242). -/
def execCpym (_cph : BitVec 16) (_dt : BitVec 8) (_off : BitVec 16) (_xsel : BitVec 2) (_xaddr : BitVec 64) (s : State) : Out :=
  s.copyStep

/-- CPYF (R243). -/
def execCpyf (_cph : BitVec 16) (_dt : BitVec 8) (_off : BitVec 16) (_xsel : BitVec 2) (_xaddr : BitVec 64) (s : State) : Out :=
  s.copyStep

/-- CPYT (R244). -/
def execCpyt (_cph : BitVec 16) (_dt : BitVec 8) (_off : BitVec 16) (_xsel : BitVec 2) (_xaddr : BitVec 64) (s : State) : Out :=
  s.copyStep

/-- CPYC (R245). -/
def execCpyc (_cph : BitVec 16) (_dt : BitVec 8) (_off : BitVec 16) (_xsel : BitVec 2) (_xaddr : BitVec 64) (s : State) : Out :=
  s.copyStep

/-- CPYG (R246). -/
def execCpyg (_cph : BitVec 16) (_dt : BitVec 8) (_off : BitVec 16) (_xsel : BitVec 2) (_xaddr : BitVec 64) (s : State) : Out :=
  s.copyStep

/-- CPYR (R247). -/
def execCpyr (_cph : BitVec 16) (_dt : BitVec 8) (_off : BitVec 16) (_xsel : BitVec 2) (_xaddr : BitVec 64) (s : State) : Out :=
  s.copyStep

/-- CPYX (R248): the copies issued before it with its TCPH are cancelled; its arrival, of 0 bytes, comes when they have
stopped. -/
def execCpyx (cph tcph : BitVec 16) (s : State) : Out :=
  let d := s.cur.die
  let c := s.cur.core
  match s.here.copyHead s.clk with
  | none => .next s
  | some x =>
    if x.id ≠ s.cur.id then .next s
    else
      let s := s.upHere fun k => { k with cpy := { k.cpy with queue := k.cpy.queue.filter fun y => y.id != x.id } }
      if !s.handleOk d c cph.toNat then .next (s.commandRecord d c 0x52 x [] false none none)
      else
        let out := s.here.cpy.flight.filter fun r => tcph == 0 || cphOf r.cmd.t == tcph.toNat
        let s := s.upHere fun k =>
          { k with cpy := { k.cpy with cancels := k.cpy.cancels ++ [(cph.toNat, out.map fun r => r.cmd.id)] } }
        .next ((out.foldl (fun s r => s.copyFault d c r 0x55 (r.cmd.dst 0, 64)) s).cancelsEnd d c)

/-! ### Completion (R240, R243, R244) -/

/-- R240: every byte of a copy has performed. -/
def Run.performed (r : Run) (clk : Nat) (own : Bool) : Bool :=
  r.stage == 1 && r.cmd.lineCount ≤ r.cmd.pos && r.lines.isEmpty && r.acks == 0 && r.fault == 0 && (!own || decide (r.done ≤ clk))

/-- R240 step 2: one arrival at a destination phaser, for which the copy waits. -/
def State.copyArrival (s : State) (d c : Nat) (r : Run) (bytes : Nat) : State :=
  let s' := s.upRun d c r.cmd.id fun r => { r with acks := r.acks + 1 }
  match region (descDph r.cmd.desc) with
  | .sync o => s'.sendArrivalFor d c (o / 64) bytes (3 + 2 * r.cmd.id)
  | .window w o =>
    let p := s'.packetOf d c w o (.arrival bytes true)
    s'.newId.inject { p with owner := r.cmd.id, addr := winAddr w o }
  | _ => s

/-- R240 steps 1 and 2: the copy releases what it holds, but for the task record that it has still to read, and its destinations
get their arrivals, one for each core of a CPYM. -/
def State.copyDelivers (s : State) (d c : Nat) (r : Run) : State :=
  let s := (s.copyVer d c r.cmd).modCore d c fun k =>
    let k := k.freeCopyReads r.cmd s.clk
    let task := k.sb.filter fun e => e.cmd == r.cmd.id && !e.writes
    let k := k.endCmd r.cmd.id s.clk false
    { k with sb := k.sb ++ task, sbFreed := (k.sbFreed.1, k.sbFreed.2 - task.length) }
  let s := s.upRun d c r.cmd.id fun r => { r with stage := 2 }
  let n := max 1 r.hosts.length
  (List.range n).foldl (fun s _ => s.copyArrival d c r (r.bytes / n)) s

/-- R240 step 4: the copy is complete. -/
def State.copyFinish (s : State) (d c : Nat) (r : Run) : State :=
  ((s.dropRun d c r.cmd.id).modCore d c fun k => k.endCmd r.cmd.id s.clk false).sendArrival d (cphOf r.cmd.t) r.bytes

/-- R244: the task record of a CPYT, or the code of the fault (log 62, DEDUCED). -/
def State.copyRecord (s : State) (d c : Nat) (x : Cmd) : Except Nat Nat × State :=
  let a := descAux x.desc
  match region a with
  | .own o =>
    let k := s.core d c
    ((if 2 ^ 20 < o + 64 then .error 0x52 else if k.cistern.poisoned unitSram o 64 then .error 0x53
      else .ok (k.cistern.readNat o 64)), s)
  | .global =>
    match s.copyEnd d c x a rightsR with
    | (.ok (.loc l), s) => ((if s.bad l 64 then .error 0x53 else .ok (s.peek l 64)), s.captureHost d l 64)
    | (.ok _, s) => (.error 0x52, s)
    | (.error f, s) => (.error f, s)
  | _ => (.error 0x52, s)

/-- R244: the push of a CPYT. -/
def State.copyPush (s : State) (d c : Nat) (r : Run) : State :=
  if !(s.die d).rdy.getLsbD 18 then s
  else
    match s.copyRecord d c r.cmd with
    | (.error f, s) => s.copyFault d c r f (descAux r.cmd.desc, 64)
    | (.ok v, s) =>
      let p := s.pushLocal d c v (s.core d c).ctx.asid.toNat
      if p.1.toNat < 2 ^ 32 then p.2.copyFinish d c r else p.2.copyFault d c r 0x57 (descAux r.cmd.desc, 64)

/-- A copy of a core in a completion step that can go on (R240). -/
def Run.goesOn (r : Run) (c clk : Nat) : Bool :=
  r.performed clk (r.ownEnds c) || (r.stage == 2 && r.acks == 0) || (r.stage == 3 && templateOp r.cmd.t == 4)

/-- COPY_COMPLETE (R240): the next step of a completion. -/
def execCopyComplete (s : State) : Out :=
  let d := s.cur.die
  let c := s.cur.core
  match s.here.copyRun s.cur.id with
  | none => .next s
  | some r =>
    if !r.goesOn c s.clk then .next s
    else if r.stage = 1 then .next ((s.copyDelivers d c r).soon { who := s.cur, op := .copyComplete })
    else if r.fault ≠ 0 then .next (s.copyFails d c r)
    else
      let s := s.upRun d c r.cmd.id fun r => { r with stage := 3 }
      match templateOp r.cmd.t with
      | 3 => .next (s.soon { who := s.cur, op := .cpyfFollowOnEnqueue })
      | 4 => .next (s.copyPush d c { r with stage := 3 })
      | _ => .next (s.copyFinish d c r)

/-- CPYF_FOLLOW_ON_ENQUEUE (R243): the follow-on enters the matrix queue, waits for it, or is rejected. -/
def execCpyfFollowOnEnqueue (s : State) : Out :=
  let d := s.cur.die
  let c := s.cur.core
  match s.here.copyRun s.cur.id with
  | none => .next s
  | some r =>
    if r.stage ≠ 3 then .next s
    else
      match decodeTemplate .mat r.cmd.follow with
      | .error _ => .next (s.copyFault d c r 0x56 (descDst r.cmd.desc, 64))
      | .ok i =>
        match s.issueCmd d c .mat i { r.cmd with t := r.cmd.follow, idx := descXarg r.cmd.desc, desc := 0, follow := 0, pos := 0 } with
        | some s => .next (s.copyFinish d c r)
        | none => .next s

/-! ### A save (R250) -/

/-- R250: the copies that a save stops: those that have started and have met no fault. -/
def Run.abortable (r : Run) : Bool := r.stage != 0 && r.fault == 0

/-- COPY_SAVE_TIMEOUT (R250): the copies still incomplete 8 µs after the start of this save are cancelled without an arrival, and
logged as aborted. -/
def execCopySaveTimeout (s : State) : Out :=
  let d := s.cur.die
  let c := s.cur.core
  match s.here.switch with
  | none => .next s
  | some w =>
    if w.step ≠ .closed || w.closedAt ≠ s.cur.id then .next s
    else
      let rs := s.here.cpy.flight.filter Run.abortable
      let s := rs.foldl (fun s r => s.copyStops d c r) s
      .next (s.upHere fun k => { k with cpy := { k.cpy with
        aborted := k.cpy.aborted ++ rs.map fun r => { r.cmd with pos := 0, aborted := true } } })

end Sys2Proof.Machine
end

