-- ==== Sys2Proof/Machine/Guards.lean ====
section
/-! DEFINITION. Guards, marks and cancellation tokens (R402–R406, R471). -/

namespace Sys2Proof.Machine
open Sys2Proof

/-! ### Guards (R402–R404) -/

/-- A word that waits only for room among the 32 operations in flight (R259, R402) (log 65, DEDUCED). -/
def State.flightReady (s : State) (k : State → Out) : Out := if 32 ≤ s.here.syncInFlight then s.hold else k s

/-- R402: the health word. An engine is ready while its cluster is; a link that is absent is not down (log 65, DEDUCED). -/
def State.healthWord (s : State) : Word :=
  let x := s.myDie
  let cl := s.cur.core == 768 || x.rdy.getLsbD (8 + s.cur.core / 192)
  let bit := fun (b : Bool) (i : Nat) => if b then 2 ^ i else 0
  let engines := if cl then s.here.health.toNat else 0
  BitVec.ofNat 64 (engines + bit (x.rdy.getLsbD 19) 4 + bit (x.rdy.getLsbD 18) 5 +
    bit ((List.range 6).all fun d => (vget x.links d {}).st != 2) 6)

/-- A guard noted in the running stroke as it was executed (R471). -/
def State.fileGuard (s : State) (key : Nat) (e : TraceEntry) : State :=
  s.modStroke s.cur.die key fun r => { r with order := r.order ++ [(s.cur.core, e)] }

/-- R395, R403: a guard or mark at first sight, or in the remainder after a hand-off. -/
def State.noteGuard (s : State) (e : TraceEntry) : State :=
  let d := s.cur.die
  let c := s.cur.core
  let i := s.cur.slot
  if e.aux ≠ 3 then (s.becomeCall d c i).note d c i fun _ => e
  else
    match s.recording d c i with
    | some (_, node, r) =>
      if r.calls.contains node then s.note d c i fun _ => e
      else s.note d c i fun _ => { e with kind := .mark, aux := 0 }
    | none => s

/-- R403: a guard of a kind with a tag on a value. -/
def State.guard (s : State) (xd : BitVec 6) (kind tag : Nat) (v : Word) : Out :=
  s.flightReady fun s =>
    let d := s.cur.die
    match s.taskOf d s.cur.core s.cur.slot, s.nodeOf d s.cur.core s.cur.slot with
    | some t, some (key, node, r) =>
      let e : TraceEntry := { kind := .guard, b := v, aux := kind, tag := tag, node := node }
      let filed := fun (s : State) => if s.myDie.gmRec then s.fileGuard key e else s
      if t.ctk ≠ r.token then s.wellResult xd 2
      else
        match r.mode with
        | .record => (s.noteGuard e).wellResult xd 0
        | .replay =>
          let g := (s.here.player.guardsOf node)[s.me.guards]?
          let s := (filed s).upMe fun x => { x with guards := x.guards + 1 }
          if kind = 3 || g.any fun g => g.aux == kind && g.tag == tag && g.b == v then s.wellResult xd 0
          else (s.guardStop d key).wellResult xd 1
        | .stopping => (filed s).wellResult xd 2
        | .handedOff => (s.noteGuard e).wellResult xd 2
        | _ => s.wellResult xd 2
    | _, _ => s.wellResult xd 2

/-- GRDSHP (R403). -/
def execGrdshp (d a : BitVec 6) (tag : BitVec 4) (s : State) : Out := s.guard d 0 tag.toNat (s.rx a)

/-- GRDVAL (R403). -/
def execGrdval (d a : BitVec 6) (tag : BitVec 4) (s : State) : Out := s.guard d 1 tag.toNat (s.rx a)

/-- GRDHLTH (R402, R403). -/
def execGrdhlth (d a : BitVec 6) (s : State) : Out :=
  if (s.rx a).toNat / 2 ^ 7 ≠ 0 then s.flightReady fun s => s.wellResult d 4
  else s.guard d 2 0 (s.healthWord &&& s.rx a)

/-- RECMRK (R403). -/
def execRecmrk (d a : BitVec 6) (s : State) : Out := s.guard d 3 0 (s.rx a)

/-! ### Tokens (R405, R406) -/

/-- The gang of the context of a core. -/
def State.gangOf (s : State) (d c : Nat) : List Nat := (List.range s.dieCount).filter fun n => s.inGang d c n

/-- R406: nodes of a die that have no DONE are discarded. -/
def State.discardNodes (s : State) (d key : Nat) (nodes : List Nat) : State :=
  nodes.foldl (fun s n => s.nodeDone d key n .discarded) s

/-- The nodes whose entries a part holds. -/
def TracePart.nodes (t : TracePart) : List Nat :=
  (t.entries.filter fun e => e.kind != .waitn && e.kind != .end_).foldl (fun l e => insertNat l e.node) []

/-- R406: the parts of a die that still wait for a player are dropped with the stroke's token. -/
def State.dropParts (s : State) (d token : Nat) : State :=
  (s.die d).graphs.entries.foldl (fun s e =>
    match e.2.run with
    | some r =>
      if r.token = token then
        let s := r.todo.foldl (fun s t => s.discardNodes d e.1 t.nodes) s
        s.modStroke d e.1 fun r => { r with left := r.left.filter fun c => r.todo.all fun t => t.core != c, todo := [] }
      else s
    | none => s) s

/-- R405: a token added to the set of every die of a gang, or removed (log 64, DEDUCED). -/
def State.setToken (s : State) (ds : List Nat) (token : Nat) (clear : Bool) : State :=
  ds.foldl (fun s d =>
    let s := s.modDie d fun x =>
      { x with tokens := if clear then x.tokens.filter fun t => t != token else insertNat x.tokens token }
    if clear then s else s.dropParts d token) s

/-- R405: a token goes into the set of each die in which it finds room. -/
def State.setTokenWhereRoom (s : State) (ds : List Nat) (token : Nat) : State :=
  s.setToken (ds.filter fun n => (s.die n).tokens.length < 1024) token false

/-- R409, R431: the command core of each die sets the tokens asked of it, on every die of its gang (R500). -/
def State.reactions (s : State) : State :=
  s.dies.entries.foldl (fun s e =>
    e.2.toSet.foldl (fun s t => s.setTokenWhereRoom (List.range s.dieCount) t) (s.modDie e.1 fun x => { x with toSet := [] })) s

/-- CTKSET (R405): a release at scope gang (log 64, DEDUCED). -/
def execCtkset (d a : BitVec 6) (c : BitVec 1) (s : State) : Out :=
  s.flightReady fun s => s.release 3 fun s =>
    let t := (s.rx a).toNat
    let ds := insertNat (s.gangOf s.cur.die s.cur.core) s.cur.die
    if t = 0 then s.wellResult d 4
    else if c = 0 && ds.any fun n => !(s.die n).tokens.contains t && 1024 ≤ (s.die n).tokens.length then s.wellResult d 1
    else (s.setToken ds t (c == 1)).wellResult d 0

/-- CTKCHK (R405): an acquire at scope own die (log 64, DEDUCED). -/
def execCtkchk (d a : BitVec 6) (s : State) : Out :=
  s.flightReady fun s =>
    let t := if a = 0 then ((s.taskOf s.cur.die s.cur.core s.cur.slot).map (·.ctk)).getD 0 else (s.rx a).toNat
    let v : Word := if t != 0 && s.myDie.tokens.contains t then 1 else 0
    .next (s.wellAnswer (.x d.toNat) [v] true).next4

end Sys2Proof.Machine
end

