-- ==== Sys2Proof/Machine/Player.lean ====
section
/-! DEFINITION. The trace players (R397–R401, R406, R409, R470). -/

namespace Sys2Proof.Machine
open Sys2Proof

/-! ### The entry at the cursor -/

/-- The entry that a player would issue next. -/
def Player.entry (p : Player) : Option TraceEntry := p.part.bind fun t => t.entries[p.cur]?

/-- The token of a player's stroke is set (R406). -/
def State.playerCancelled (s : State) (d c : Nat) : Bool :=
  match s.stroke d (s.core d c).player.gid with
  | some r => (s.die d).tokens.contains r.token
  | none => false

/-- R397, R409: a player that takes its next entry in this clk: it waits for no call, and no pre-emption has stopped it. -/
def Core.plays (k : Core) : Option TraceEntry :=
  if k.player.act && k.player.call.isNone && !k.closed && k.switch.isNone then k.player.entry else none

/-- A clk in which a player is blocked at its entry (R396). -/
def TraceEntry.stalled (e : TraceEntry) : TraceEntry := { e with stall := min 65535 (e.stall + 1) }

/-- The entry at index i of a part has been blocked for one more clk. -/
def TracePart.stallAt (t : TracePart) (i : Nat) : TracePart :=
  { t with entries := ((List.range t.entries.length).zip t.entries).map fun e => if e.1 = i then e.2.stalled else e.2 }

/-- R397: a player whose call has not reached its TKDONE. -/
def Core.awaitsCall (k : Core) : Bool := k.player.act && k.player.call.isSome && !k.closed && k.switch.isNone

/-- The player of the core that the step concerns is blocked at the entry with an index. -/
def State.playerBlocked (s : State) (i : Nat) : State :=
  s.modPlayer s.cur.die s.cur.core fun p => { p with part := p.part.map fun t => t.stallAt i }

/-- The player stays blocked at the entry that it would issue. -/
def State.playerWaits (s : State) : State := s.playerBlocked s.here.player.cur

/-- The player goes on to its next entry. -/
def State.playerNext (s : State) : State := s.modPlayer s.cur.die s.cur.core fun p => { p with cur := p.cur + 1 }

/-- R409: a fault that the player meets: the command core sets the token of the stroke. -/
def State.playerFault (s : State) (token : Nat) : State := (s.askToken s.cur.die token).playerWaits

/-- What a player's step on an entry of a kind does: given its graph, stroke and entry. -/
def State.play (s : State) (kind : TraceKind) (f : State → Graph → Stroke → TraceEntry → State) : Out :=
  let d := s.cur.die
  match s.here.plays with
  | none => .next s
  | some e =>
    if e.kind ≠ kind || s.playerCancelled d s.cur.core then .next s
    else
      match s.graph d s.here.player.gid with
      | some g => match g.run with
        | some r => .next (f s g r e)
        | none => .next s
      | none => .next s

/-! ### TEMPLATE (R397, R398) -/

/-- R397: a recorded template enters its queue once its conditions hold. -/
def State.playTemplate (s : State) (r : Stroke) (e : TraceEntry) : State :=
  let eng := Engine.ofCode (BitVec.ofNat 2 e.aux)
  match decodeTemplate eng e.a with
  | .error _ => s.playerFault r.token
  | .ok i =>
    let c : Cmd := { id := 0, t := e.a, idx := e.b.toNat % 64, slot := 0, at_ := s.clk, token := r.token }
    match s.agentCopy i c with
    | .error _ => s.playerFault r.token
    | .ok none => s.playerWaits
    | .ok (some c) =>
      match s.issueCmd s.cur.die s.cur.core eng i c with
      | some s => s.playerNext
      | none => s.playerWaits

/-- PLAYER_TEMPLATE (R397). -/
def execPlayerTemplate (s : State) : Out := s.play .template fun s _ r e => s.playTemplate r e

/-! ### Waits and arrivals (R397) -/

/-- The line of the phaser that an entry names. -/
def State.playerPhaser (s : State) (g : Graph) (e : TraceEntry) : Loc := .sync s.cur.die ((g.phbase + e.ph) * 64)

/-- R263, R409: a player's operation meets an uncorrectable line, which the sync engine reports. -/
def State.playerBad (s : State) (l : Loc) (token : Nat) : State :=
  (s.syncUe s.cur.die l 64 s.here.ctx.asid.toNat 0).playerFault token

/-- PLAYER_PHWAIT (R397, R409). -/
def execPlayerPhwait (s : State) : Out :=
  s.play .phwait fun s g r e =>
    let l := s.playerPhaser g e
    let p := s.phaser l
    if s.syncWaits l then s.playerWaits
    else if s.bad l 64 then s.playerBad l r.token
    else if !p.valid then s.playerFault r.token
    else if !phasePassed p.ph e.b.toNat then s.playerWaits
    else if p.codeOf e.b.toNat ≠ 0 then s.playerFault r.token
    else s.playerNext

/-- PLAYER_PHARV (R397). -/
def execPlayerPharv (s : State) : Out :=
  s.play .pharv fun s g r e =>
    let l := s.playerPhaser g e
    if s.syncWaits l then s.playerWaits
    else if s.bad l 64 then s.playerBad l r.token
    else
    let s := if (s.phaser l).valid then (s.memberArrive l (e.b.toNat % 2 ^ 40)).afterArrival s.cur.die l false else s
    s.playerNext

/-- PLAYER_WAITN (R397, R400). -/
def execPlayerWaitn (s : State) : Out :=
  s.play .waitn fun s _ r e => if r.bits.contains e.node then s.playerNext else s.playerWaits

/-! ### CALL and DONE (R397) -/

/-- R397: the record of a call placed in the prefetch buffer of the core. -/
def State.placeCall (s : State) (g : Graph) (r : Stroke) (node : Nat) (n : Node) : State :=
  let d := s.cur.die
  let key := s.here.player.gid
  let t := { g.formRecord r key node n 0 with st := .prefetched }
  let h := (s.die d).freeHandle (Config.choice s.fresh)
  let s := s.stamp.modDie d fun x => { x with recs := x.recs.set h t }.modJob t.job fun j => { j with out := j.out + 1 }
  let s := s.upHere fun k => { k with prefetch := k.prefetch ++ [h] }
  s.modPlayer d s.cur.core fun p => { p with call := some h, cur := p.cur + 1 }

/-- PLAYER_CALL (R397): the call's record, where the buffer and the wellhead have room (log 53, DEDUCED); while the call runs,
one more clk of its entry's STALL (R396). -/
def execPlayerCall (s : State) : Out :=
  if s.here.awaitsCall then .next (s.playerBlocked (s.here.player.cur - 1))
  else
    s.play .call fun s g r e =>
      match g.nodes[e.node]? with
      | none => s.playerFault r.token
      | some n => if 2 ≤ s.here.prefetch.length || !s.myDie.rdy.getLsbD 18 || !s.myDie.hasRoom then s.playerWaits else s.placeCall g r e.node n

/-- PLAYER_DONE (R397, R407): the completion; a player that a guard stop has met stops at its task boundary. -/
def execPlayerDone (s : State) : Out :=
  s.play .done fun s _ _ e =>
    let d := s.cur.die
    let c := s.cur.core
    let s := (s.nodeDone d s.here.player.gid e.node .done).playerNext
    if s.here.player.stopping && s.here.player.atBoundary then (s.playerOver d c true).nextPart d c else s

/-- PLAYER_MARK (R397). -/
def execPlayerMark (s : State) : Out := s.play .mark fun s _ _ _ => s.playerNext

/-- PLAYER_GUARD (R397). -/
def execPlayerGuard (s : State) : Out := s.play .guard fun s _ _ _ => s.playerNext

/-! ### The end (R397, R406, R470) -/

/-- R406: a player whose token is set issues no more: the nodes of its part without a DONE are discarded. -/
def State.playerCancel (s : State) (d c : Nat) : State :=
  let p := (s.core d c).player
  let s := s.discardNodes d p.gid ((p.part.map TracePart.nodes).getD [])
  (s.playerOver d c false).nextPart d c

/-- PLAYER_END (R397, R406): the part is finished, with CUR at END; or the token of the stroke ends it. -/
def execPlayerEnd (s : State) : Out :=
  let d := s.cur.die
  let c := s.cur.core
  if s.here.plays.isSome && s.playerCancelled d c then .next (s.playerCancel d c)
  else s.play .end_ fun s _ _ _ => (s.playerOver d c false).nextPart d c

/-- The step of a player in a clk (R397). -/
def State.playerStep (s : State) (d c : Nat) : Option Instr :=
  if (s.core d c).awaitsCall then some .playerCall
  else (s.core d c).plays.map fun e =>
    if s.playerCancelled d c then .playerEnd
    else
      match e.kind with
      | .done => .playerDone
      | .end_ => .playerEnd
      | .template => .playerTemplate
      | .phwait => .playerPhwait
      | .pharv => .playerPharv
      | .waitn => .playerWaitn
      | .call => .playerCall
      | .guard => .playerGuard
      | .mark => .playerMark

end Sys2Proof.Machine
end

