-- ==== Sys2Proof/Machine/Graphs.lean ====
section
/-! DEFINITION. The pump, and the upload and deletion of graphs and trace versions (R381–R387, R396, R410, R411). -/

namespace Sys2Proof.Machine
open Sys2Proof

/-! ### Who writes, and the reads of a write (R384) -/

/-- The writer of a graph register: a slot of a core, or the host, whose addresses are physical (log 51, DEDUCED). -/
structure Writer where
  die : Nat
  core : Nat
  priv : Bool
  host : Bool
  deriving DecidableEq, Repr

/-- The core whose context a write of a graph register concerns: the writer's, or that of the lowest-numbered core with a
resident context where the writer has none of its own (log 51, DEDUCED). -/
def State.contextCore (s : State) (w : Writer) : Nat :=
  if !w.host && (s.core w.die w.core).ctx.asid != 0 then w.core
  else (((s.die w.die).cores.entries.find? fun e => e.1 != 768 && e.2.ctx.valid).map (·.1)).getD w.core

/-- The ASID that a write of a graph register concerns (log 51, DEDUCED). -/
def State.writerAsid (s : State) (w : Writer) : Nat := (s.core w.die (s.contextCore w)).ctx.asid.toNat

/-- A line that a write of a graph register makes the device read. -/
def State.readLineBy (s : State) (w : Writer) (a : Nat) : Option Nat × State :=
  if w.host then
    match s.physical w.die 768 a with
    | some l => (if s.bad l 64 then none else some (s.peek l 64), s)
    | none => (none, s)
  else s.readGlobal { die := w.die, core := w.core, asid := (s.core w.die w.core).ctx.asid.toNat, priv := w.priv, xl := [] } a 64

/-- n lines from an address on, the first least significant; none where a read faults. -/
def State.readLinesBy (s : State) (w : Writer) (a : Nat) : Nat → Option Nat × State
  | 0 => (some 0, s)
  | n + 1 =>
    match s.readLineBy w a with
    | (none, s) => (none, s)
    | (some v, s) =>
      match s.readLinesBy w (a + 64) n with
      | (some r, s) => (some (v + r * 2 ^ 512), s)
      | x => x

/-- n bytes of an image from byte b on. -/
def imageF (img b n : Nat) : Nat := img / 2 ^ (8 * b) % 2 ^ (8 * n)

/-! ### The pump (R385–R387) -/

/-- The kind under which a refusal is posted (R387). -/
def kindRefusal : Nat := 0x102

/-- R387, R389: a write of a graph register refused with a code. -/
def State.refuse (s : State) (d code : Nat) : State :=
  s.modDie d fun x => { x with grErr := BitVec.ofNat 8 code }

/-- The pairs of a patch list of n pairs. -/
def patchPairs (img n : Nat) : List (Nat × Word) :=
  (List.range n).map fun i => (imageF img (8 + 16 * i) 8, BitVec.ofNat 64 (imageF img (16 + 16 * i) 8))

/-- R386: the patch list at an address; none when a read faults; `n` beyond 256 pairs reads no pair. -/
def State.readPatch (s : State) (w : Writer) (a : Nat) : Option (Nat × List (Nat × Word)) × State :=
  if a = 0 then (some (0, []), s)
  else
    match s.readLineBy w a with
    | (none, s) => (none, s)
    | (some v, s) =>
      let n := imageF v 0 8
      if 256 < n then (some (n, []), s)
      else
        match s.readLinesBy w a ((8 + 16 * n + 63) / 64) with
        | (some img, s) => (some (n, patchPairs img n), s)
        | (none, s) => (none, s)

/-- R388: the stroke token (log 50, DEDUCED). -/
def strokeToken (gid stroke : Nat) : Nat := 0x80000000 + gid * 2 ^ 23 + stroke % 2 ^ 23

/-- R412: the pump write and its patch list in a capture. -/
def State.capturePump (s : State) (d : Nat) (v : Word) (patch : List (Nat × Word)) : State :=
  patch.foldl (fun s p => s.capture d 2 p.1 p.2.toNat) (s.capture d 1 0 v.toNat)

/-- R387: an accepted stroke: it starts, or waits for the running one of its graph (log 50, DEDUCED). -/
def State.acceptStroke (s : State) (d key : Nat) (v : Word) (patch : List (Nat × Word)) : State :=
  let s := s.modDie d fun x => { x with grStroke := x.grStroke + 1 }
  let token := strokeToken (key % 256) (s.die d).grStroke.toNat
  let s := s.capturePump d v patch
  if (s.graphDies key).any fun n => (s.stroke n key).isSome then s.modGraphs key fun g => { g with pending := some (patch, token, d) }
  else s.startStroke key patch token d

/-- R387: a write of GR.PUMP: accepted, or refused with its event. -/
def State.pumpWrite (s : State) (w : Writer) (v : Word) : State :=
  let d := w.die
  let no := fun (s : State) (code : Nat) => (s.refuse d code).post d kindRefusal (BitVec.ofNat 64 code) v
  let key := graphKey (s.writerAsid w) (v.toNat / 2 ^ 56)
  match s.graph d key with
  | none => no s 1
  | some g =>
    if g.pending.isSome then no s 2
    else
      match s.readPatch w (v.toNat / 64 % 2 ^ 50 * 64) with
      | (none, s) => no s 7
      | (some (n, patch), s) =>
        if 256 < n || patch.any fun p => g.nparam ≤ p.1 then no s 3 else s.acceptStroke d key v patch

/-! ### Graph images (R381–R383) -/

/-- The successors that a node entry at byte b lists. -/
def imageSucc (img b : Nat) : List Nat := (List.range (imageF img (b + 52) 2)).map fun i => imageF img (imageF img (b + 56) 8 + 2 * i) 2

/-- R382: node i of an image. -/
def imageNode (img i : Nat) : Node :=
  let b := 64 + 64 * i
  let f := fun (o n : Nat) => imageF img (b + o) n
  { entry := BitVec.ofNat 64 (f 0 8)
    args := #v[BitVec.ofNat 64 (f 8 8), BitVec.ofNat 64 (f 16 8), BitVec.ofNat 64 (f 24 8), BitVec.ofNat 64 (f 32 8)]
    kind := f 40 2 % 2 ^ 15, pure_ := f 40 2 / 2 ^ 15 == 1, die := f 42 2, dl := f 44 1, pbind := f 45 1, aff := f 46 2
    queue := f 48 2, npred := f 50 2, succ := imageSucc img b }

/-- R381: phaser i of an image. -/
def imagePhaser (img i : Nat) : GPhaser :=
  let b := imageF img 12 4 + 16 * i
  { ns := imageF img b 2, nw := imageF img (b + 2) 2, nsw := imageF img (b + 4) 2, exp := BitVec.ofNat 64 (imageF img (b + 8) 8) }

/-- R381: the header keeps its limits. -/
def headerOk (img : Nat) : Bool :=
  let f := imageF img
  let len := f 32 4
  let nph := f 6 2
  f 0 1 == 1 && 1 ≤ f 1 1 && 1 ≤ f 2 2 && f 2 2 ≤ 4096 && f 4 2 ≤ 256 && nph ≤ 256 &&
  (nph == 0 || (1 ≤ f 8 4 && f 8 4 + nph - 1 ≤ 65535 && f 12 4 + 16 * nph ≤ len)) &&
  f 20 4 % 8 == 0 && f 20 4 ≤ 4096 && f 16 4 + f 20 4 ≤ len && f 24 2 < 256 && f 26 6 == 0 && len ≤ 2 ^ 20 &&
  64 + 64 * f 2 2 ≤ len && f 36 28 == 0

/-- R381: the phaser table keeps its reserved bytes. -/
def phaserTableOk (img : Nat) : Bool := (List.range (imageF img 6 2)).all fun i => imageF img (imageF img 12 4 + 16 * i + 6) 2 == 0

/-- R382, R383: node i of an image keeps its limits; `gang` says which dies it may name. -/
def imageNodeOk (img i : Nat) (gang : Nat → Bool) : Bool :=
  let b := 64 + 64 * i
  let n := imageNode img i
  let ns := imageF img (b + 52) 2
  let bound := fun (k : Nat) => n.pbind / 2 ^ k % 2 == 1
  let arg := fun (k : Nat) => (vget n.args k 0).toNat % 256
  n.entry.toNat % 4 == 0 && (n.die == 0xFFFF || gang n.die) && n.dl < 128 && n.pbind < 16 && n.aff / 2 ^ 12 == 0 &&
  n.aff / 2 ^ 10 != 3 && (n.aff / 2 ^ 10 != 2 || n.aff % 2 ^ 10 < 768) && n.queue < 1024 && ns ≤ 1023 && imageF img (b + 54) 2 == 0 &&
  (ns == 0 || imageF img (b + 56) 8 + 2 * ns ≤ imageF img 32 4) && n.succ.all (fun j => j < imageF img 2 2) &&
  ([0, 1, 2, 3].all fun k => !bound k || (arg k < imageF img 4 2 && (!n.pure_ || arg k < 32)))

/-- Nodes left after those without a predecessor among them have been taken away, k times over. -/
def peelNodes (ns : List (Nat × Node)) : Nat → List (Nat × Node)
  | 0 => ns
  | k + 1 =>
    let rest := ns.filter fun e => ns.any fun p => p.2.succ.contains e.1
    if rest.length = ns.length then rest else peelNodes rest k

/-- R383: the edges form no cycle. -/
def acyclic (ns : List Node) : Bool := (peelNodes ((List.range ns.length).zip ns) ns.length).isEmpty

/-- R383: references to node i as a successor. -/
def references (ns : List Node) (i : Nat) : Nat := (ns.map fun n => (n.succ.filter fun j => j == i).length).sum

/-- R381: the graph of an image. -/
def imageGraph (img asid : Nat) : Graph :=
  { asid := asid, nparam := imageF img 4 2, phbase := imageF img 8 4, job := imageF img 24 2
    nodes := (List.range (imageF img 2 2)).map (imageNode img), phasers := (List.range (imageF img 6 2)).map (imagePhaser img)
    shape := (List.range (imageF img 20 4 / 8)).map fun i => BitVec.ofNat 64 (imageF img (imageF img 16 4 + 8 * i) 8) }

/-- R383: an image is accepted for a graph id. -/
def imageOk (img gid : Nat) (gang : Nat → Bool) : Bool :=
  let ns := (imageGraph img 0).nodes
  imageF img 1 1 == gid && phaserTableOk img && ((List.range ns.length).all fun i => imageNodeOk img i gang) &&
  ((List.range ns.length).zip ns).all (fun e => references ns e.1 == e.2.npred) && acyclic ns

/-- A graph has a stroke running or pending (R383). -/
def State.graphBusy (s : State) (key : Nat) : Bool :=
  (s.graphDies key).any fun d => (s.graph d key).any fun g => g.run.isSome || g.pending.isSome

/-- The traces of a graph leave a die. -/
def Die.dropTraces (x : Die) (key : Nat) : Die :=
  { x with traces := x.traces.filter fun t => !(t.asid == key / 256 && t.gid == key % 256) }

/-- R383: a graph on every die of the gang, in place of an earlier one of its id. -/
def State.installGraph (s : State) (ds : List Nat) (key : Nat) (g : Graph) : State :=
  ds.foldl (fun s d => s.modDie d fun x => { (x.dropTraces key) with graphs := x.graphs.set key g }) s

/-- R383: an upload of a graph image (log 63, DEDUCED). -/
def State.uploadGraph (s : State) (w : Writer) (v : Word) : State :=
  let d := w.die
  let a := v.toNat / 64 % 2 ^ 50 * 64
  let asid := s.writerAsid w
  let gid := v.toNat / 2 ^ 56
  let key := graphKey asid gid
  match s.readLineBy w a with
  | (none, s) => s.refuse d 7
  | (some h, s) =>
    if !headerOk h then s.refuse d 4
    else
      match s.readLinesBy w a ((imageF h 32 4 + 63) / 64) with
      | (none, s) => s.refuse d 7
      | (some img, s) =>
        let gang := s.inGang d (s.contextCore w)
        if !imageOk img gid gang then s.refuse d 4
        else if s.graphBusy key then s.refuse d 5
        else s.installGraph ((List.range s.dieCount).filter gang) key (imageGraph img asid)

/-- R383: the deletion of a graph and its traces. -/
def State.deleteGraph (s : State) (w : Writer) (v : Word) : State :=
  let key := graphKey (s.writerAsid w) (v.toNat / 2 ^ 56)
  if s.graphBusy key then s.refuse w.die 5
  else (s.graphDies key).foldl (fun s d => s.modDie d fun x => { (x.dropTraces key) with graphs := x.graphs.erase key }) s

/-! ### Trace versions (R396, R411) -/

/-- R396: KIND of a trace entry. -/
def traceKind (k : Nat) : Option TraceKind :=
  [TraceKind.end_, .template, .phwait, .pharv, .waitn, .call, .guard, .done, .mark][k]?

/-- R396: the entry at byte b of a part. -/
def imageEntry (img b : Nat) : Option TraceEntry :=
  (traceKind (imageF img (b + 24) 1)).map fun k =>
    let aux := imageF img (b + 25) 1
    { kind := k, a := BitVec.ofNat 128 (imageF img b 16), b := BitVec.ofNat 64 (imageF img (b + 16) 8), aux := aux % 4
      tag := aux / 16, node := imageF img (b + 26) 2, stall := imageF img (b + 28) 2, ph := imageF img (b + 30) 2 }

/-- R396: the part of an image with n entries and g grants. -/
def imagePart (img n g : Nat) : Option TracePart :=
  let es := (List.range n).map fun i => imageEntry img (64 + 32 * i)
  let sched := 64 + 32 * n
  if es.any Option.isNone then none
  else some { core := imageF img 10 2, version := imageF img 12 4, entries := es.filterMap id
              grants := (List.range g).map fun i =>
                (BitVec.ofNat 64 (imageF img (sched + 16 * i) 8), BitVec.ofNat 64 (imageF img (sched + 16 * i + 8) 8)) }

/-- R396, R411: a set of a graph with the key of a header, whose part a version can replace. -/
def TraceSet.takes (q : TraceSet) (key : Nat) (img : Nat) : Bool :=
  q.asid == key / 256 && q.gid == key % 256 && q.key.toNat == imageF img 0 8 && q.parts.any fun p => p.core == imageF img 10 2

/-- R411: an upload of a trace version (log 63, DEDUCED). -/
def State.uploadTrace (s : State) (w : Writer) (v : Word) : State :=
  let d := w.die
  let a := v.toNat / 64 % 2 ^ 50 * 64
  let key := graphKey (s.writerAsid w) (v.toNat / 2 ^ 56)
  match s.readLineBy w a with
  | (none, s) => s.refuse d 7
  | (some h, s) =>
    let n := imageF h 16 4
    let g := imageF h 20 4
    let to_ := imageF h 8 2
    match s.readLinesBy w a ((64 + 32 * n + 16 * g + 63) / 64) with
    | (none, s) => s.refuse d 7
    | (some img, s) =>
      if (s.graph d key).isNone then s.refuse d 1
      else
        match imagePart img n g with
        | none => s.refuse d 4
        | some p =>
          if !(s.die d).gmRefine || !(s.graphDies key).contains to_ || !((s.die to_).traces.any fun q => q.takes key img) then s.refuse d 4
          else
            let put := fun (q : TraceSet) =>
              if q.takes key img then { q with fresh := (q.fresh.filter fun f => f.core != p.core) ++ [p] } else q
            s.modDie to_ fun x => { x with traces := x.traces.map put }

/-- R384: a write of GR.UPLD. -/
def State.upldWrite (s : State) (w : Writer) (v : Word) : State :=
  if v.getLsbD 0 then s.deleteGraph w v else if v.getLsbD 1 then s.uploadTrace w v else s.uploadGraph w v

/-! ### The events -/

/-- The writer that an event names: n = 1 for the host. -/
def State.writer (s : State) : Writer :=
  if s.cur.n = 1 then { die := s.cur.die, core := 768, priv := true, host := true }
  else { die := s.cur.die, core := s.cur.core, priv := s.me.priv, host := false }

/-- PUMP (R387). -/
def execPump (s : State) : Out := .next (s.pumpWrite s.writer s.cur.val)

/-- GRAPH_UPLOAD (R383). -/
def execGraphUpload (s : State) : Out := .next (s.uploadGraph s.writer s.cur.val)

/-- GRAPH_DELETE (R383). -/
def execGraphDelete (s : State) : Out := .next (s.deleteGraph s.writer s.cur.val)

/-- TRACE_UPLOAD (R411). -/
def execTraceUpload (s : State) : Out := .next (s.uploadTrace s.writer s.cur.val)

end Sys2Proof.Machine
end

