-- ==== Sys2Proof/Machine/Alu.lean ====
section
/-! DEFINITION. ALU register operations (class 0x0, R120–R122): values, then one meaning per instruction. -/

namespace Sys2Proof.Machine
open Sys2Proof

/-! ### Values (R121) -/

/-- The high half of the signed product. -/
def mulHigh (a b : Word) : Word := ((a.signExtend 128 * b.signExtend 128) >>> 64).setWidth 64

/-- The high half of the natural product. -/
def mulHighN (a b : Word) : Word := ((a.setWidth 128 * b.setWidth 128) >>> 64).setWidth 64

/-- Signed division, truncated toward zero; −2^63 / −1 is −2^63 modulo 2^64. -/
def divS (a b : Word) : Word := if b = 0 then BitVec.allOnes 64 else BitVec.ofInt 64 (a.toInt.tdiv b.toInt)

/-- Natural division. -/
def divN (a b : Word) : Word := if b = 0 then BitVec.allOnes 64 else BitVec.ofNat 64 (a.toNat / b.toNat)

/-- Signed remainder, with the sign of the dividend. -/
def remS (a b : Word) : Word := if b = 0 then a else BitVec.ofInt 64 (a.toInt.tmod b.toInt)

/-- Natural remainder. -/
def remN (a b : Word) : Word := if b = 0 then a else BitVec.ofNat 64 (a.toNat % b.toNat)

/-- b[5:0]. -/
def shamt (b : Word) : Nat := b.toNat % 64

/-- Leading zeros among the low n bits, from the top. -/
def leadingFrom (a : Word) : Nat → Nat
  | 0 => 0
  | n + 1 => if a.getLsbD n then 0 else 1 + leadingFrom a n

/-- CLZ. -/
def leading (a : Word) : Word := BitVec.ofNat 64 (leadingFrom a 64)

/-- Trailing zeros from bit 64 − n on. -/
def trailingFrom (a : Word) : Nat → Nat
  | 0 => 0
  | n + 1 => if a.getLsbD (63 - n) then 0 else 1 + trailingFrom a n

/-- CTZ. -/
def trailing (a : Word) : Word := BitVec.ofNat 64 (trailingFrom a 64)

/-- POPC. -/
def ones (a : Word) : Word := BitVec.ofNat 64 (popNat64 a 64)
where
  /-- set bits among the low n -/
  popNat64 (a : Word) : Nat → Nat
    | 0 => 0
    | n + 1 => (if a.getLsbD n then 1 else 0) + popNat64 a n

/-- BREV. -/
def reverseBits (a : Word) : Word := a.reverse

/-- BSWP. -/
def reverseBytes (a : Word) : Word :=
  a.extractLsb' 0 8 ++ a.extractLsb' 8 8 ++ a.extractLsb' 16 8 ++ a.extractLsb' 24 8 ++ a.extractLsb' 32 8 ++
  a.extractLsb' 40 8 ++ a.extractLsb' 48 8 ++ a.extractLsb' 56 8

/-- R72: the source width of SEXT and ZEXT in bits. -/
def sourceWidth (w : BitVec 3) : Nat := 8 * 2 ^ w.toNat

/-- SEXT. -/
def signField (a : Word) (n : Nat) : Word := (a <<< (64 - n)).sshiftRight (64 - n)

/-- ZEXT. -/
def zeroField (a : Word) (n : Nat) : Word := (a <<< (64 - n)) >>> (64 - n)

/-- pos and w of BFX and BFI. -/
def fieldPos (b : Word) : Nat := b.toNat % 64
def fieldWidth (b : Word) : Nat := min (b.toNat / 64 % 128) (64 - fieldPos b)

/-- BFX. -/
def bitField (a b : Word) : Word :=
  let w := fieldWidth b
  if w = 0 then 0 else if b.getLsbD 13 then signField (a >>> fieldPos b) w else zeroField (a >>> fieldPos b) w

/-- BFI. -/
def insertField (d a b : Word) : Word :=
  let m : Word := zeroField (BitVec.allOnes 64) (fieldWidth b) <<< fieldPos b
  if fieldWidth b = 0 then d else (d &&& ~~~m) ||| ((a <<< fieldPos b) &&& m)

/-- ABSD: the exact difference as a natural value. -/
def absDiff (a b : Word) : Word := if condLt a b then b - a else a - b

/-! ### Meanings -/

/-- A two-operand operation (R120, R72) whose result can be read n clk after issue (R119). -/
def State.alu2 (s : State) (f : Word → Word → Word) (d a b : BitVec 6) (k : Bool) (n : Nat) : Out :=
  s.result d (f (s.rx a) (s.op2 b k)) n

/-- A division: readable after 6 to 34 clk (R119; log 4, DESIGN CHOICE). -/
def State.aluDiv (s : State) (f : Word → Word → Word) (d a b : BitVec 6) (k : Bool) : Out :=
  s.alu2 f d a b k (6 + Config.divLatency (s.rx a) (s.op2 b k) % 29)

/-- ADD (R121). -/
def execAdd (d a b : BitVec 6) (k : Bool) (s : State) : Out := s.alu2 (fun a b => a + b) d a b k 1

/-- SUB (R121). -/
def execSub (d a b : BitVec 6) (k : Bool) (s : State) : Out := s.alu2 (fun a b => a - b) d a b k 1

/-- MUL (R121). -/
def execMul (d a b : BitVec 6) (k : Bool) (s : State) : Out := s.alu2 (fun a b => a * b) d a b k 3

/-- MULH (R121). -/
def execMulh (d a b : BitVec 6) (k : Bool) (s : State) : Out := s.alu2 (fun a b => mulHigh a b) d a b k 3

/-- MULHN (R121). -/
def execMulhn (d a b : BitVec 6) (k : Bool) (s : State) : Out := s.alu2 (fun a b => mulHighN a b) d a b k 3

/-- DIV (R121). -/
def execDiv (d a b : BitVec 6) (k : Bool) (s : State) : Out := s.aluDiv (fun a b => divS a b) d a b k

/-- DIVN (R121). -/
def execDivn (d a b : BitVec 6) (k : Bool) (s : State) : Out := s.aluDiv (fun a b => divN a b) d a b k

/-- REM (R121). -/
def execRem (d a b : BitVec 6) (k : Bool) (s : State) : Out := s.aluDiv (fun a b => remS a b) d a b k

/-- REMN (R121). -/
def execRemn (d a b : BitVec 6) (k : Bool) (s : State) : Out := s.aluDiv (fun a b => remN a b) d a b k

/-- AND (R121). -/
def execAnd (d a b : BitVec 6) (k : Bool) (s : State) : Out := s.alu2 (fun a b => a &&& b) d a b k 1

/-- OR (R121). -/
def execOr (d a b : BitVec 6) (k : Bool) (s : State) : Out := s.alu2 (fun a b => a ||| b) d a b k 1

/-- XOR (R121). -/
def execXor (d a b : BitVec 6) (k : Bool) (s : State) : Out := s.alu2 (fun a b => a ^^^ b) d a b k 1

/-- ANDN (R121). -/
def execAndn (d a b : BitVec 6) (k : Bool) (s : State) : Out := s.alu2 (fun a b => a &&& ~~~b) d a b k 1

/-- ORN (R121). -/
def execOrn (d a b : BitVec 6) (k : Bool) (s : State) : Out := s.alu2 (fun a b => a ||| ~~~b) d a b k 1

/-- SHL (R121). -/
def execShl (d a b : BitVec 6) (k : Bool) (s : State) : Out := s.alu2 (fun a b => a <<< (shamt b)) d a b k 1

/-- SHR (R121). -/
def execShr (d a b : BitVec 6) (k : Bool) (s : State) : Out := s.alu2 (fun a b => a >>> (shamt b)) d a b k 1

/-- SHRA (R121). -/
def execShra (d a b : BitVec 6) (k : Bool) (s : State) : Out := s.alu2 (fun a b => a.sshiftRight (shamt b)) d a b k 1

/-- ROTL (R121). -/
def execRotl (d a b : BitVec 6) (k : Bool) (s : State) : Out := s.alu2 (fun a b => a.rotateLeft (shamt b)) d a b k 1

/-- ROTR (R121). -/
def execRotr (d a b : BitVec 6) (k : Bool) (s : State) : Out := s.alu2 (fun a b => a.rotateRight (shamt b)) d a b k 1

/-- MIN (R121). -/
def execMin (d a b : BitVec 6) (k : Bool) (s : State) : Out := s.alu2 (fun a b => if condLt b a then b else a) d a b k 1

/-- MAX (R121). -/
def execMax (d a b : BitVec 6) (k : Bool) (s : State) : Out := s.alu2 (fun a b => if condLt a b then b else a) d a b k 1

/-- MINN (R121). -/
def execMinn (d a b : BitVec 6) (k : Bool) (s : State) : Out := s.alu2 (fun a b => if condLtn b a then b else a) d a b k 1

/-- MAXN (R121). -/
def execMaxn (d a b : BitVec 6) (k : Bool) (s : State) : Out := s.alu2 (fun a b => if condLtn a b then b else a) d a b k 1

/-- CMPEQ (R121). -/
def execCmpeq (d a b : BitVec 6) (k : Bool) (s : State) : Out := s.alu2 (fun a b => boolWord (condEq a b)) d a b k 1

/-- CMPNE (R121). -/
def execCmpne (d a b : BitVec 6) (k : Bool) (s : State) : Out := s.alu2 (fun a b => boolWord (condNe a b)) d a b k 1

/-- CMPLT (R121). -/
def execCmplt (d a b : BitVec 6) (k : Bool) (s : State) : Out := s.alu2 (fun a b => boolWord (condLt a b)) d a b k 1

/-- CMPLE (R121). -/
def execCmple (d a b : BitVec 6) (k : Bool) (s : State) : Out := s.alu2 (fun a b => boolWord (condLe a b)) d a b k 1

/-- CMPLTN (R121). -/
def execCmpltn (d a b : BitVec 6) (k : Bool) (s : State) : Out := s.alu2 (fun a b => boolWord (condLtn a b)) d a b k 1

/-- CMPLEN (R121). -/
def execCmplen (d a b : BitVec 6) (k : Bool) (s : State) : Out := s.alu2 (fun a b => boolWord (condLen a b)) d a b k 1

/-- BFX (R121). -/
def execBfx (d a b : BitVec 6) (k : Bool) (s : State) : Out := s.alu2 (fun a b => bitField a b) d a b k 1

/-- ABSD (R121). -/
def execAbsd (d a b : BitVec 6) (k : Bool) (s : State) : Out := s.alu2 (fun a b => absDiff a b) d a b k 1

/-- CLZ (R121). -/
def execClz (d a : BitVec 6) (s : State) : Out := s.result d (leading (s.rx a)) 1

/-- CTZ (R121). -/
def execCtz (d a : BitVec 6) (s : State) : Out := s.result d (trailing (s.rx a)) 1

/-- POPC (R121). -/
def execPopc (d a : BitVec 6) (s : State) : Out := s.result d (ones (s.rx a)) 1

/-- BREV (R121). -/
def execBrev (d a : BitVec 6) (s : State) : Out := s.result d (reverseBits (s.rx a)) 1

/-- BSWP (R121). -/
def execBswp (d a : BitVec 6) (s : State) : Out := s.result d (reverseBytes (s.rx a)) 1

/-- SEXT (R121, R72). -/
def execSext (d a : BitVec 6) (w : BitVec 3) (s : State) : Out := s.result d (signField (s.rx a) (sourceWidth w)) 1

/-- ZEXT (R121, R72). -/
def execZext (d a : BitVec 6) (w : BitVec 3) (s : State) : Out := s.result d (zeroField (s.rx a) (sourceWidth w)) 1

/-- SEL (R121). -/
def execSel (d a b : BitVec 6) (k : Bool) (s : State) : Out :=
  s.result d (if s.rx d ≠ 0 then s.rx a else s.op2 b k) 1

/-- BFI (R121). -/
def execBfi (d a b : BitVec 6) (k : Bool) (s : State) : Out :=
  s.result d (insertField (s.rx d) (s.rx a) (s.op2 b k)) 1

/-- ADDSH (R121). -/
def execAddsh (d a b : BitVec 6) (k : Bool) (sh : BitVec 3) (s : State) : Out :=
  s.result d (s.rx a + s.op2 b k <<< sh.toNat) 1

/-- MADD (R121). -/
def execMadd (d a b : BitVec 6) (k : Bool) (s : State) : Out :=
  s.result d (s.rx d + s.rx a * s.op2 b k) 3

end Sys2Proof.Machine
end

