-- ==== Sys2Proof/Machine/Macro.lean ====
section
/-! DEFINITION. Layer macros, the macro unit and its micro-operations, and the optimiser update (R414–R427, R432). -/

namespace Sys2Proof

/-! ### The arithmetic of the update (R423) -/

/-- a / b + c of exact values, rounded once. -/
def divAdd (f : FFmt) (a b c : Fp) : Fp :=
  match a, b with
  | .fin na ma ea, .fin nb mb eb =>
    match Fp.add .rne (.fin (na != nb) ma (ea - eb)) (Fp.mul c (.fin false mb 0)) with
    | .fin n m e => roundEx f .rne 0 ⟨n, m, mb, e⟩
    | x => x
  | _, _ => roundFp f .rne 0 (Fp.add .rne (fdiv f .rne a b) c)

/-- The factors of an update as exact values: LR, B1, B2, EPS, WD, C1, C2. -/
structure OptRates where
  lr : Fp
  b1 : Fp
  b2 : Fp
  eps : Fp
  wd : Fp
  c1 : Fp
  c2 : Fp
  deriving DecidableEq, Repr

/-- R423: m', v' and the new weight of an element, given g, m, v, w and the random bits of the weight. -/
def optElement (r : OptRates) (g m v w : Fp) (u : Nat) : Fp × Fp × Fp :=
  let rnd := roundFp fp32 .rne 0
  let one := fpOfInt 1
  let mix := fun (b x y : Fp) => rnd (Fp.add .rne (Fp.mul b x) (Fp.mul (Fp.add .rne one b.negate) y))
  let m' := mix r.b1 m g
  let v' := mix r.b2 v (Fp.mul g g)
  let mh := rnd (Fp.mul m' r.c1)
  let vh := rnd (Fp.mul v' r.c2)
  let d := rnd (Fp.add .rne vh.sqrt r.eps)
  let st := divAdd fp32 mh d (Fp.mul r.wd w)
  (m', v', roundFp Sys2Proof.bf16 .rsto u (Fp.add .rne w (Fp.mul r.lr st).negate))

end Sys2Proof

namespace Sys2Proof.Machine
open Sys2Proof

/-! ### The macro unit (R414, R417) -/

/-- The macro unit of the core that the step concerns changed. -/
def State.upMacro (s : State) (f : Macro → Macro) : State := s.upHere fun k => { k with macro_ := f k.macro_ }

/-- The running expansion changed. -/
def State.upExp (s : State) (f : Expanding → Expanding) : State := s.upMacro fun m => { m with run := m.run.map f }

/-- R417: the expansion ends with a fault. -/
def State.macroFault (s : State) (code : Nat) : State :=
  s.upExp fun x => { x with ended := true, code := if x.code = 0 then code else x.code }

/-- R417: the micro-PC moves; outside the store it is a fault. -/
def State.macroGoto (s : State) (pc : Int) : State :=
  if 0 ≤ pc ∧ pc < 2048 then s.upExp fun x => { x with upc := pc.toNat } else s.macroFault 0x73

/-- R414: mr0 reads as 0, and a write to it is discarded. -/
def Expanding.reg (x : Expanding) (i : Nat) : Word := if i = 0 then 0 else vget x.mr i 0
def Expanding.setReg (x : Expanding) (i : Nat) (v : Word) : Expanding := if i = 0 then x else { x with mr := x.mr.setIfInBounds i v }

/-- A command is queued or executing. -/
def Core.cmdLive (k : Core) (id : Nat) : Bool :=
  (k.mat.queue.any fun x => x.id == id) || (k.mat.running.any fun r => r.cmd.id == id) ||
  (k.cpy.queue.any fun x => x.id == id) || (k.cpy.flight.any fun r => r.cmd.id == id) ||
  (k.smp.queue.any fun x => x.id == id) || k.smp.running.any fun r => r.cmd.id == id

/-- Every command of the running expansion has completed. -/
def Core.expansionDone (k : Core) (x : Expanding) : Bool := x.cmds.all fun c => !k.cmdLive c.2

/-! ### Micro-operations (R415) -/

def uKind (w : Word) : Nat := w.toNat / 2 ^ 60
def uMd (w : Word) : Nat := w.toNat / 2 ^ 56 % 16
def uMa (w : Word) : Nat := w.toNat / 2 ^ 52 % 16
def uMb (w : Word) : Nat := w.toNat / 2 ^ 48 % 16
def uSub (w : Word) : Nat := w.toNat / 2 ^ 44 % 16
def uImm (w : Word) : Nat := w.toNat % 2 ^ 32
def uImmS (w : Word) : Int := (BitVec.ofNat 32 (uImm w)).toInt

/-- R415: the fields that the kind reads are legal, and the others are 0. -/
def uLegal (w : Word) : Bool :=
  let rest := w.toNat / 2 ^ 32 % 2 ^ 12 == 0
  let no := fun (md ma mb sub imm : Bool) =>
    rest && (!md || uMd w == 0) && (!ma || uMa w == 0) && (!mb || uMb w == 0) && (!sub || uSub w == 0) && (!imm || uImm w == 0)
  match uKind w with
  | 0 => no true true true true true
  | 1 => no true false false false false && uImm w < 64 && uSub w % 4 != 0
  | 2 => no false false false false false && uSub w < 11
  | 3 => no true false true true false && uImm w != 0
  | 4 => no true true true true true
  | 5 => no true false false false true && uSub w < 2
  | 6 => no true false false true true
  | 7 => no true false false true true
  | 8 => no true false true true false
  | _ => false

/-- The operand b (R415). -/
def Expanding.opB (x : Expanding) (w : Word) : Word := x.reg (uMb w) + BitVec.ofInt 64 (uImmS w)

/-- R417, R427: the expansion that takes a micro-operation in this clk, with its word. -/
def Core.microWord (k : Core) : Option (Expanding × Word) :=
  if k.closed then none
  else k.macro_.run.bind fun x => if x.ended then none else some (x, k.macro_.store.get 0 x.upc)

/-- One micro-operation, if it is of the kind that the step names: its faults first. -/
def State.micro (s : State) (mine : Word → Bool) (f : State → Expanding → Word → State) : Out :=
  match s.here.microWord with
  | none => .next s
  | some (x, w) =>
    if s.here.macro_.poisoned.contains x.upc then .next (s.macroFault 0x77)
    else if !uLegal w then .next (s.macroFault 0x71)
    else if mine w then .next (f s x w)
    else .next s

/-- The micro-PC moves to the next micro-operation. -/
def State.microNext (s : State) : State :=
  match s.here.macro_.run with
  | some x => s.macroGoto (x.upc + 1)
  | none => s

/-- MICRO_END (R415, R422). -/
def execMicroEnd (s : State) : Out := s.micro (fun w => uKind w == 0) fun s _ _ => s.upExp fun x => { x with ended := true }

/-! ### ISSUE (R415, R421) -/

/-- R421: in LDGR and LWGR an MSTR with SRC 1 reads with ORIENT := 1. -/
def turned (kind : Nat) (e : Engine) (t : Template) : Template :=
  if (kind = 1 || kind = 2) && e == .mat && templateOp t == 3 && t.toNat / 2 ^ 73 % 4 == 1 then Template.put t 64 1 1 else t

/-- R415: a template issued with its pairs, or what it meets (log 67, DEDUCED). -/
def State.microIssue (s : State) (x : Expanding) (w : Word) : State :=
  let e := Engine.ofCode (BitVec.ofNat 2 (uSub w))
  let idx := uImm w
  let n := s.here.entry e idx
  let a := if uSub w / 4 % 2 = 1 then some (x.reg (uMa w)) else none
  let b := if uSub w / 8 = 1 then some (x.reg (uMb w)) else none
  let t := turned x.e.kind e (amendPairs e n.t a b)
  if !n.loading.isEmpty then s
  else if n.poisoned.isSome then s.macroFault 0x77
  else
    match decodeTemplate e t with
    | .error _ => s.macroFault 0x75
    | .ok i =>
      match s.agentCopy i { id := 0, t := t, idx := idx, slot := 0, at_ := s.clk, macro_ := true, priv := x.e.priv, token := x.e.token } with
      | .error f => s.macroFault f
      | .ok none => s
      | .ok (some c) =>
        match s.issueCmd s.cur.die s.cur.core e i c with
        | none => s
        | some s' => (s'.upExp fun x => { x with cmds := x.cmds ++ [(e.code, s.ids)] }).microNext

/-- MICRO_ISSUE (R415, R417). -/
def execMicroIssue (s : State) : Out := s.micro (fun w => uKind w == 1) State.microIssue

/-! ### ALU (R416) -/

/-- A micro-operation that writes MD. -/
def State.microAlu (s : State) (sub : Nat) (f : Word → Word → Word) : Out :=
  s.micro (fun w => uKind w == 2 && uSub w == sub) fun s _ w =>
    (s.upExp fun x => x.setReg (uMd w) (f (x.reg (uMa w)) (x.opB w))).microNext

/-- MICRO_ADD (R416). -/
def execMicroAdd (s : State) : Out := s.microAlu 0 fun a b => a + b

/-- MICRO_SUB (R416). -/
def execMicroSub (s : State) : Out := s.microAlu 1 fun a b => a - b

/-- MICRO_MUL (R416). -/
def execMicroMul (s : State) : Out := s.microAlu 2 fun a b => a * b

/-- MICRO_SHL (R416). -/
def execMicroShl (s : State) : Out := s.microAlu 3 fun a b => a <<< (b.toNat % 64)

/-- MICRO_SHR (R416). -/
def execMicroShr (s : State) : Out := s.microAlu 4 fun a b => a >>> (b.toNat % 64)

/-- MICRO_AND (R416). -/
def execMicroAnd (s : State) : Out := s.microAlu 5 fun a b => a &&& b

/-- MICRO_OR (R416). -/
def execMicroOr (s : State) : Out := s.microAlu 6 fun a b => a ||| b

/-- MICRO_MINN (R416). -/
def execMicroMinn (s : State) : Out := s.microAlu 7 fun a b => if b.ult a then b else a

/-- MICRO_MAXN (R416). -/
def execMicroMaxn (s : State) : Out := s.microAlu 8 fun a b => if a.ult b then b else a

/-- MICRO_DIVN (R416, R121). -/
def execMicroDivn (s : State) : Out := s.microAlu 9 divN

/-- The doubleword at a byte of a list of bytes. -/
def doubleword (bs : List Byte) (o : Nat) : Word :=
  BitVec.ofNat 64 ((List.range 8).foldl (fun v i => v + ((bs[o + i]?).getD 0).toNat * 2 ^ (8 * i)) 0)

/-- MICRO_LDD (R416). -/
def execMicroLdd (s : State) : Out :=
  s.micro (fun w => uKind w == 2 && uSub w == 10) fun s x w =>
    let b := (x.opB w).toNat
    if b % 8 ≠ 0 || 128 ≤ b then s.macroFault 0x71
    else (s.upExp fun x => x.setReg (uMd w) (doubleword x.desc b)).microNext

/-! ### LOOP, LEND, JNZ (R415, R132) -/

/-- MICRO_LOOP (R415, R417). -/
def execMicroLoop (s : State) : Out :=
  s.micro (fun w => uKind w == 3) fun s x w =>
    let n := (x.reg (uMa w)).toNat
    if n = 0 then s.macroGoto (x.upc + uImm w + 1)
    else if 4 ≤ x.loops.length then s.macroFault 0x72
    else (s.upExp fun x => { x with loops := (n, 0, x.upc + 1) :: x.loops }).microNext

/-- MICRO_LEND (R415, R132). -/
def execMicroLend (s : State) : Out :=
  s.micro (fun w => uKind w == 4) fun s x _ =>
    match x.loops with
    | [] => s.macroFault 0x72
    | (n, i, top) :: rest =>
      if i + 1 < n then (s.upExp fun x => { x with loops := (n, i + 1, top) :: rest }).macroGoto top
      else (s.upExp fun x => { x with loops := rest }).microNext

/-- MICRO_JNZ (R415). -/
def execMicroJnz (s : State) : Out :=
  s.micro (fun w => uKind w == 8) fun s x w => if x.reg (uMa w) ≠ 0 then s.macroGoto (x.upc + uImmS w) else s.microNext

/-! ### WAIT and ARRV (R415) -/

/-- MICRO_WAIT_ALL (R415). -/
def execMicroWaitAll (s : State) : Out :=
  s.micro (fun w => uKind w == 5 && uSub w == 0) fun s x _ => if s.here.expansionDone x then s.microNext else s

/-- The phaser line at an address of the own die's sync-variable region, within the grant (log 67, DEDUCED). -/
def State.macroPhaser (s : State) (a : Word) : Option Loc :=
  match region a with
  | .sync o => if o % 64 = 0 && 64 ≤ o && o < 0x400000 && s.granted s.cur.die s.cur.core o then some (.sync s.cur.die o) else none
  | _ => none

/-- What a micro-operation does at the phaser that it names: it waits for the sync engine (R493), and an address that is no
phaser's, or an uncorrectable line, which the sync engine reports (R263), ends the expansion (log 67, DEDUCED). -/
def State.atPhaser (s : State) (a : Word) (f : Loc → State) : State :=
  match s.macroPhaser a with
  | none => s.macroFault 0x52
  | some l =>
    if s.syncWaits l then s
    else if s.bad l 64 then (s.syncUe s.cur.die l 64 s.here.ctx.asid.toNat 0).macroFault 0x53
    else f l

/-- MICRO_WAIT_PHASER (R415): an error completion ends the expansion with its code. -/
def execMicroWaitPhaser (s : State) : Out :=
  s.micro (fun w => uKind w == 5 && uSub w == 1) fun s x w => s.atPhaser (x.reg (uMa w)) fun l =>
    let p := s.phaser l
    let b := (x.opB w).toNat % 2 ^ 32
    if !p.valid then s.macroFault 0x52
    else if !phasePassed p.ph b then s
    else if p.codeOf b ≠ 0 then s.macroFault (p.codeOf b).toNat
    else s.microNext

/-- MICRO_ARRV (R415, R271). -/
def execMicroArrv (s : State) : Out :=
  s.micro (fun w => uKind w == 6) fun s x w => s.atPhaser (x.reg (uMa w)) fun l =>
    let s := if (s.phaser l).valid then (s.memberArrive l ((x.reg (uMb w)).toNat % 2 ^ 40)).afterArrival s.cur.die l false else s
    s.microNext

/-! ### The layer descriptor (R418) -/

/-- n bytes of a descriptor from byte i on. -/
def layerF (bs : List Byte) (i n : Nat) : Nat := (List.range n).foldl (fun v k => v + ((bs[i + k]?).getD 0).toNat * 2 ^ (8 * k)) 0

/-- R418: a descriptor keeps its limits. -/
def layerOk (bs : List Byte) : Bool :=
  let f := layerF bs
  let dim := fun (b : Nat) => 1 ≤ f b 4 && f b 4 ≤ 2 ^ 24
  f 0 1 == 1 && f 2 2 < 2048 && f 4 2 < 2048 && f 6 2 < 2048 && f 8 2 < 2048 && f 10 2 == 0 && dim 12 && dim 16 && dim 20 &&
  f 108 4 == 0 && f 120 8 == 0

/-- R419: the share unit of a macro kind. -/
def shareUnit (kind : Nat) (bs : List Byte) : Nat :=
  let f := layerF bs
  match kind with
  | 2 => f 20 4
  | 3 => f 20 4 * f 16 4
  | _ => f 12 4

/-- The access of an expansion. -/
def Expansion.access (e : Expansion) (d c : Nat) : Access := { die := d, core := c, asid := e.asid, priv := e.priv, xl := [] }

/-- R418: the 128 bytes of a descriptor; none when a read faults. -/
def State.layerBytes (s : State) (e : Expansion) : Option (List Byte) × State :=
  let bytes := fun (v n : Nat) => (List.range n).map fun i => BitVec.ofNat 8 (v / 2 ^ (8 * i))
  let a := e.addr.toNat
  match region e.addr with
  | .own o =>
    let k := s.here
    (if 2 ^ 20 < o + 128 || k.cistern.poisoned unitSram o 128 then none else some (bytes (k.cistern.readNat o 128) 128), s)
  | .global =>
    match s.readGlobal (e.access s.cur.die s.cur.core) a 64 with
    | (none, s) => (none, s)
    | (some v, s) =>
      match s.readGlobal (e.access s.cur.die s.cur.core) (a + 64) 64 with
      | (none, s) => (none, s)
      | (some w, s) => (some (bytes v 64 ++ bytes w 64), s)
  | _ => (none, s)

/-! ### OPT (R423, R432) -/

/-- The place of n bytes that an update reads or writes, aligned at their size: none for a fault (log 67, DEDUCED). -/
def State.optPlace (s : State) (e : Expansion) (va : Word) (n : Nat) (w : Rights) : Option Loc × State :=
  let x := e.access s.cur.die s.cur.core
  if va.toNat % n ≠ 0 then (none, s)
  else
    match region va with
    | .global =>
      match s.reach x va.toNat w with
      | (.at_ l, s) => (some l, s)
      | (_, s) => (none, s)
    | _ =>
      match s.place x va n w with
      | .ok (.loc l) => (some l, s)
      | _ => (none, s)

/-- The places of an element: g, m, v and w. -/
structure OptPlaces where
  g : Loc
  m : Loc
  v : Loc
  w : Loc
  deriving DecidableEq, Repr

/-- R423: the places of element e, with no poison there; none for the fault. -/
def State.optPlaces (s : State) (x : Expanding) (e : Nat) : Option OptPlaces × State :=
  let f := layerF x.desc
  let kn := f 20 4 * f 16 4
  let addr := fun (b k n : Nat) => BitVec.ofNat 64 (f b 8 + k * n)
  let g := s.optPlace x.e (addr 56 e 4) 4 rightsR
  let m := g.2.optPlace x.e (addr 72 e 4) 4 rightsRW
  let v := m.2.optPlace x.e (addr 72 (kn + e) 4) 4 rightsRW
  let w := v.2.optPlace x.e (addr 32 e 2) 2 rightsRW
  let s := w.2
  match g.1, m.1, v.1, w.1 with
  | some g, some m, some v, some w =>
    (if s.bad g 4 || s.bad m 4 || s.bad v 4 || s.bad w 2 then none else some { g := g, m := m, v := v, w := w }, s)
  | _, _, _, _ => (none, s)

/-- The places of elements from e on, n of them; none for a fault at one. -/
def State.optGroup (s : State) (x : Expanding) (e : Nat) : Nat → Option (List (Nat × OptPlaces)) × State
  | 0 => (some [], s)
  | n + 1 =>
    match s.optPlaces x e with
    | (none, s) => (none, s)
    | (some p, s) =>
      match s.optGroup x (e + 1) n with
      | (some ps, s) => (some ((e, p) :: ps), s)
      | r => r

/-- R423, R230: a place in the own cistern that is held back. -/
def State.optHeld (s : State) (l : Loc) (n : Nat) (w : Bool) : Bool :=
  match s.isOwn l with
  | some o => s.here.held o n w
  | none => false

/-- The rates of a descriptor. -/
def ratesOf (bs : List Byte) : OptRates :=
  let f := fun (b : Nat) => fp32.decode (layerF bs b 4)
  { lr := f 80, b1 := f 84, b2 := f 88, eps := f 92, wd := f 96, c1 := f 100, c2 := f 104 }

/-- R431, R432: a non-finite value that an update meets. -/
def State.optNonFinite (s : State) (x : Expanding) : State :=
  if s.here.nfPol then s.countNonFinite s.cur.die s.cur.core (layerF x.desc 1 1) 1
  else s.nonFinite s.cur.die s.cur.core 2 x.e.token 0

/-- R423: one element updated. -/
def State.optOne (s : State) (x : Expanding) (e : Nat) (p : OptPlaces) : State :=
  let g := fp32.decode (s.peek p.g 4)
  let m := fp32.decode (s.peek p.m 4)
  let v := fp32.decode (s.peek p.v 4)
  let w := Sys2Proof.bf16.decode (s.peek p.w 2)
  let pol := s.here.nfPol
  let s := if g.nonFinite then s.optNonFinite x else s
  if m.nonFinite || v.nonFinite || w.nonFinite then s.optNonFinite x
  else if g.nonFinite && !pol then s
  else
    let r := optElement (ratesOf x.desc) (if g.nonFinite then .zero false else g) m v w
      (rand32 (BitVec.ofNat 64 (layerF x.desc 112 8)) e)
    let s := (s.poke p.w 2 (Sys2Proof.bf16.encode r.2.2)).snoop p.w
    let s := (s.poke p.m 4 (fp32.encode r.1)).snoop p.m
    (s.poke p.v 4 (fp32.encode r.2.1)).snoop p.v

/-- R423: one group of at most 32 elements, or the end of the update. -/
def State.optStep (s : State) (x : Expanding) (w : Word) : State :=
  let e := (x.reg (uMa w)).toNat + x.opt
  let last := (x.reg (uMb w)).toNat
  if !s.here.expansionDone x then s
  else if last ≤ e then (s.upExp fun x => { x with opt := 0 }).microNext
  else
    let n := min 32 (last - e)
    match s.optGroup x e n with
    | (none, s) => s.macroFault 0x78
    | (some ps, s) =>
      if ps.any fun p => s.optHeld p.2.g 4 false || s.optHeld p.2.m 4 true || s.optHeld p.2.v 4 true || s.optHeld p.2.w 2 true then s
      else
        let s := ps.foldl (fun s p => s.optOne x p.1 p.2) s
        if last ≤ e + n then (s.upExp fun x => { x with opt := 0 }).microNext
        else s.upExp fun x => { x with opt := x.opt + n }

/-- MICRO_OPT (R423). -/
def execMicroOpt (s : State) : Out := s.micro (fun w => uKind w == 7) State.optStep

/-! ### The start and end of an expansion (R421, R422) -/

/-- EXPANSION_START (R421). -/
def execExpansionStart (s : State) : Out :=
  let m := s.here.macro_
  match m.run, m.queue with
  | none, e :: rest =>
    if s.here.closed then .next s
    else
      let b := s.layerBytes e
      let s := b.2.upMacro fun m => { m with queue := rest }
      match b.1 with
      | none => .next (s.upMacro fun m => { m with run := some { e := e, upc := 0, ended := true, code := 0x74 } })
      | some bs =>
        if !layerOk bs then .next (s.upMacro fun m => { m with run := some { e := e, upc := 0, desc := bs, ended := true, code := 0x74 } })
        else
          let sh := shareUnit e.kind bs
          let x : Expanding := { e := e, upc := layerF bs (2 + 2 * e.kind) 2, desc := bs }
          let x := [(1, e.p), (2, e.n), (3, e.addr.toNat), (4, e.p * sh / e.n), (5, (e.p + 1) * sh / e.n)].foldl
            (fun x r => x.setReg r.1 (BitVec.ofNat 64 r.2)) x
          .next (s.upMacro fun m => { m with run := some x })
  | _, _ => .next s

/-- Where the leader of an expansion is: on the slot of its issue, or on one that has restored its context (R427). -/
def State.leaderAt (s : State) (e : Expansion) : Option (Nat × Nat × Nat) :=
  if (s.findPend s.cur.die e.lcore e.lslot e.lid).isSome then some (s.cur.die, e.lcore, e.lslot)
  else s.dies.entries.findSome? fun x => x.2.cores.entries.findSome? fun k =>
    ([0, 1, 2, 3].find? fun i => (k.2.slot i).pend.any fun p => p.id == e.lid).map fun i => (x.1, k.1, i)

/-- R422, R427: an expansion reports to its leader, which a save may hold: the code of the faulted one of lowest p, once
every one has ended. -/
def State.reportExpansion (s : State) (e : Expansion) (code : Nat) : State :=
  let f := fun (p : Pend) =>
    let worse := code != 0 && (match p.vals with
      | [c, q] => c == 0 || e.p < q.toNat
      | _ => true)
    { p with left := p.left - 1, answered := p.left ≤ 1
             vals := if worse then [BitVec.ofNat 64 code, BitVec.ofNat 64 e.p] else p.vals }
  let live := s.leaderAt e
  let s := match live with
    | some (d, c, i) => s.modPend d c i e.lid f
    | none => s
  let saved := fun (x : Slot) => { x with pend := x.pend.map fun (p : Pend) => if p.id = e.lid then f p else p }
  let sides := s.saves.entries.map fun (y : Nat × SaveSide) => (y.1, { y.2 with slots := y.2.slots.map saved })
  let s := { s with saves := { entries := sides } }
  match live with
  | some (d, c, i) =>
    if (s.findPend d c i e.lid).any (·.answered) then s.landLater d c i e.lid .syncResultLands else s
  | none => s

/-- R406, R422: the token of the running expansion is set. -/
def State.expansionCancelled (s : State) (d c : Nat) : Bool :=
  match (s.core d c).macro_.run with
  | some x => !x.ended && x.e.token != 0 && (s.die d).tokens.contains x.e.token
  | none => false

/-- EXPANSION_END (R422): an ended or cancelled expansion whose commands have completed reports to its leader. -/
def execExpansionEnd (s : State) : Out :=
  let s := if s.expansionCancelled s.cur.die s.cur.core then s.macroFault 0x76 else s
  match s.here.macro_.run with
  | some x =>
    if x.ended && s.here.expansionDone x then
      .next ((s.upMacro fun m => { m with run := none, lcode := if x.code = 0 then m.lcode else x.code }).reportExpansion x.e x.code)
    else .next s
  | none => .next s

/-- What the macro unit of a core does in a clk (R417). -/
def State.macroStep (s : State) (d c : Nat) : Option Instr :=
  let k := s.core d c
  let m := k.macro_
  if k.closed then none
  else
    match m.run with
    | none => if m.queue.isEmpty then none else some .expansionStart
    | some x =>
      if x.ended then (if k.expansionDone x then some .expansionEnd else none)
      else if s.expansionCancelled d c then some .expansionEnd
      else
        let w := m.store.get 0 x.upc
        match uKind w with
        | 1 => some .microIssue
        | 2 => [Instr.microAdd, .microSub, .microMul, .microShl, .microShr, .microAnd, .microOr, .microMinn, .microMaxn, .microDivn,
                .microLdd][uSub w]?.getD .microEnd
        | 3 => some .microLoop
        | 4 => some .microLend
        | 5 => some (if uSub w = 1 then .microWaitPhaser else .microWaitAll)
        | 6 => some .microArrv
        | 7 => some .microOpt
        | 8 => some .microJnz
        | _ => some .microEnd

/-! ### The words (R419, R420, R424, R425) -/

/-- R420: the members of a group by rank: core and position. -/
def rankOrder (ms : List (Nat × Nat)) : List (Nat × Nat) :=
  let t := ms.foldl (fun (t : Tab Nat) m => t.set m.1 m.2) {}
  (List.range t.entries.length).zip (t.entries.map fun e => (e.2 - 1) / 4)

/-- The thread of lowest rank of a group. -/
def lowestRank (ms : List (Nat × Nat)) : Nat := ((ms.foldl (fun (t : Tab Nat) m => t.set m.1 m.2) {}).entries.head?.map (·.2)).getD 0

/-- R420: a layer macro of a kind. -/
def State.layerMacro (s : State) (kind : Nat) (d a b : BitVec 6) : Out :=
  let va := s.rx a
  let g := (s.rx b).toNat
  let ms := ((s.myDie.groups.find g).map (·.members)).getD []
  if va.toNat % 64 ≠ 0 || 4096 ≤ g || ms.isEmpty || lowestRank ms ≠ s.thread then s.variable d (fail 4) none
  else
    let ps := rankOrder ms
    let full := ps.any fun p =>
      4 < (s.core s.cur.die p.2).macro_.queue.length + (ps.filter fun q => q.2 == p.2).length
    s.release 2 fun s =>
      if full then s.hold
      else
        let token := ((s.taskOf s.cur.die s.cur.core s.cur.slot).map (·.ctk)).getD 0
        let id := s.ids
        let s' := s.addPend { Pend.new (.x d.toNat) with vals := [0, 0], left := ps.length }
        .next (ps.foldl (fun s' p => s'.modCore s.cur.die p.2 fun k =>
          { k with macro_ := { k.macro_ with queue := k.macro_.queue ++ [
              { kind := kind, addr := va, p := p.1, n := ps.length, token := token, lcore := s.cur.core, lslot := s.cur.slot
                lid := id, asid := s.here.ctx.asid.toNat, priv := s.me.priv }] } }) s').next4

/-- LFWD (R420). -/
def execLfwd (d a b : BitVec 6) (s : State) : Out := s.layerMacro 0 d a b

/-- LDGR (R420). -/
def execLdgr (d a b : BitVec 6) (s : State) : Out := s.layerMacro 1 d a b

/-- LWGR (R420). -/
def execLwgr (d a b : BitVec 6) (s : State) : Out := s.layerMacro 2 d a b

/-- LUPD (R420). -/
def execLupd (d a b : BitVec 6) (s : State) : Out := s.layerMacro 3 d a b

/-- R424: the places of n bytes from an address on, line by line, with the bytes at each. -/
def State.rangePlaces (s : State) (va : Word) (n : Nat) : Ans (List (Loc × Nat)) :=
  Ans.all ((linePieces va.toNat n).map fun p =>
    (s.place s.access (BitVec.ofNat 64 p.1) p.2 rightsR).bind fun pl =>
      match pl with
      | .loc l => .ok (l, p.2)
      | .versioned _ _ => accessFault p.1 rightsR
      | .win w o =>
        (s.winNeed w o p.2 false (BitVec.ofNat 64 p.1) rightsR).bind fun _ => .ok (s.winLoc (s.here.win w) o, p.2))

/-- The bytes at a list of places, the first least significant. -/
def State.peekAll (s : State) : List (Loc × Nat) → Nat
  | [] => 0
  | (l, n) :: rest => s.peek l n + 2 ^ (8 * n) * s.peekAll rest

/-- MCLD (R424). -/
def execMcld (d a b : BitVec 6) (s : State) : Out :=
  let va := s.rx a
  let v := (s.rx b).toNat
  let f := v % 2 ^ 11
  let c := v / 2 ^ 16 % 2 ^ 11 + 1
  if v / 2 ^ 11 % 2 ^ 5 ≠ 0 || v / 2 ^ 27 ≠ 0 || 2048 < f + c then s.variable d (fail 4) none
  else if va.toNat % 8 ≠ 0 then s.raise causeAlign va 8
  else
    (s.rangePlaces va (8 * c)).run s fun ps =>
      let m := s.here.macro_
      let held := ps.any fun p => match s.isOwn p.1 with
        | some o => s.here.held o p.2 false
        | none => s.syncWaits p.1
      if m.run.isSome || !m.queue.isEmpty || held then s.hold
      else if ps.any fun p => s.bad p.1 p.2 then s.variable d 7 none
      else
        let data := s.peekAll ps
        let store := (List.range c).foldl (fun (t : Tab Word) i => t.set (f + i) (BitVec.ofNat 64 (data / 2 ^ (64 * i)))) m.store
        (s.upMacro fun m =>
          { m with store := store, poisoned := m.poisoned.filter fun i => !(f ≤ i && i < f + c) }).variable d 0 none

/-- MC.STAT (R426). -/
def Macro.stat (m : Macro) : Word :=
  let x := m.run
  let f := fun (g : Expanding → Nat) => (x.map g).getD 0
  BitVec.ofNat 64 ((if x.isSome then 2 ^ 63 else 0) + f (fun x => x.e.kind % 4) * 2 ^ 61 + m.queue.length % 8 * 2 ^ 58 +
    m.lcode % 256 * 2 ^ 40 + f (fun x => x.loops.length % 8) * 2 ^ 37 + f (fun x => x.upc % 2 ^ 11))

/-- MCSTAT (R425). -/
def execMcstat (d a : BitVec 6) (q : BitVec 4) (s : State) : Out :=
  let i := (s.rx a).toNat
  s.result d (if q = 0 then s.here.macro_.stat else if 2 ^ 11 ≤ i then fail 4 else s.here.macro_.store.get 0 i) 1

end Sys2Proof.Machine
end

