-- ==== Sys2Proof/Machine/Registers.lean ====
section
/-! DEFINITION. The control registers as the words that a read gives (R18, R21, R30, R35, R108–R117, R305–R309, R326,
R354, R355, R389, R392, R401, R413, R428–R430, R435–R437, R487–R498). -/

namespace Sys2Proof.Machine
open Sys2Proof

/-- A flag at a bit of a word. -/
def bitN (b : Bool) (i : Nat) : Nat := if b then 2 ^ i else 0

/-- A word by its value. -/
def wordN (n : Nat) : Word := BitVec.ofNat 64 n

/-! ### A slot -/

/-- SEQ.STAT (R109). -/
def Slot.seqStat (x : Slot) (slot : Nat) : Word := wordN (bitN x.priv 0 + bitN x.inh 1 + slot % 4 * 2 ^ 10)

/-- SEQ.CTL (R30). -/
def Slot.seqCtl (x : Slot) : Word := wordN (bitN x.chkw 0 + bitN x.dbgp 1)

/-- SEQ.LREC (R35). -/
def Slot.seqLrec (x : Slot) : Word := wordN (min x.lrecCount 8 + bitN (x.lrecCount != 0) 4)

/-- TRAP.STAT (R116). -/
def Slot.trapStat (x : Slot) : Word := wordN (bitN x.trapPriv 0 + x.trapDepth.toNat * 2)

/-! ### A core -/

/-- CORE.PART (R18). -/
def Part.word (p : Part) : Word := wordN (p.regg % 2 ^ 9 + p.scrg % 2 ^ 9 * 2 ^ 9 + p.accg % 2 ^ 9 * 2 ^ 18)

/-- The value of CORE.PART that a word gives. -/
def partOf (v : Word) : Part :=
  { regg := v.toNat % 2 ^ 9, scrg := v.toNat / 2 ^ 9 % 2 ^ 9, accg := v.toNat / 2 ^ 18 % 2 ^ 9 }

/-- SMP.FCNT (R308). -/
def fcntWord (e : Bool × Nat × Nat) : Word := wordN (e.2.2 % 2 ^ 32 + e.2.1 % 2 ^ 8 * 2 ^ 32 + bitN e.1 40)

/-- NT.CH (R309). -/
def NormCh.word (c : NormCh) : Word :=
  wordN (c.ncol % 2 ^ 15 + c.voff % 2 ^ 14 * 2 ^ 15 + c.vlen % 2 ^ 15 * 2 ^ 29 + bitN c.rows 44 + c.fmt % 4 * 2 ^ 45 + bitN c.act 47 +
    bitN c.bad 48)

/-- SCOPE.SG (R287). -/
def sgWord (e : Nat × Nat) : Word := wordN (e.2 % 2 ^ 12 + e.1 % 8 * 2 ^ 13)

/-- The scope-table entry that a word gives. -/
def sgOf (v : Word) : Nat × Nat := (v.toNat / 2 ^ 13 % 8, v.toNat % 2 ^ 12)

/-- R287: a value that an entry from 5 to 31 refuses. -/
def sgRefused (v : Word) : Bool := 6 ≤ (sgOf v).1 || ((sgOf v).1 == 5 && (sgOf v).2 == 0)

/-- NF.CBASE (R429): the counter base in units of 1,024 bytes, at bit 10. -/
def Core.nfCbase (k : Core) : Word := wordN (k.nfOff.toNat * 2 ^ 10)

/-- NF.STAT (R430). -/
def Core.nfStat (k : Core) : Word := wordN (k.nfToken.toNat + k.nfSrc.toNat * 2 ^ 32 + bitN k.nfSeen 34)

/-- The node of the entry at a player's cursor (R401): at a WAITN, the node that waits, of which the next other entry is (R395,
R473). -/
def Player.curNode (p : Player) : Nat :=
  ((p.part.bind fun t => (t.entries.drop p.cur).find? fun e => e.kind != .waitn).map (·.node)).getD 0

/-- PLY.CUR (R401). -/
def Player.curWord (p : Player) : Word := wordN (p.cur % 2 ^ 32 + p.curNode % 2 ^ 12 * 2 ^ 48 + bitN p.act 63)

/-- CTX.CUR (R435). -/
def Context.curWord (c : Context) : Word :=
  if c.valid then wordN (c.asid.toNat + c.prio.toNat * 2 ^ 16 + 2 ^ 20) else 0

/-- FAB.LOC (R326). -/
def State.fabLoc (s : State) (d c : Nat) : Word :=
  let p := s.coords d
  wordN (p.1 % 32 + p.2.1 % 32 * 2 ^ 5 + p.2.2 % 32 * 2 ^ 10 + (if c = 768 then 0 else c / 192) * 2 ^ 15 + s.pkg d * 2 ^ 17 +
    (if c = 768 then 192 else c % 192) * 2 ^ 18)

/-! ### A die -/

/-- WH.STAT (R355). -/
def Die.whStat (x : Die) : Word := wordN (x.queuedCount % 2 ^ 17 + x.freeCount % 2 ^ 17 * 2 ^ 17)

/-- The code of MODE (R389). -/
def StrokeMode.code : StrokeMode → Nat
  | .idle => 0
  | .record => 1
  | .dynamic => 2
  | .replay => 3
  | .handedOff => 4
  | .stopping => 5

/-- GR.STAT (R389). -/
def Die.grStat (x : Die) : Word :=
  let pend := ((x.graphs.find x.latest).bind (·.pending)).isSome
  wordN (x.grErr.toNat + min x.traces.length 256 * 2 ^ 17 + bitN x.capOvf 26 + bitN x.grStop 27 + bitN pend 28 +
    x.grMode.code * 2 ^ 29 + x.grStroke.toNat * 2 ^ 32 + x.grGid.toNat * 2 ^ 56)

/-- GR.MODE (R392). -/
def Die.grModeWord (x : Die) : Word := wordN (bitN x.gmRec 0 + bitN x.gmRpl 1 + bitN x.gmCapt 2 + bitN x.gmRefine 3)

/-- GR.CAPT (R413). -/
def Die.grCapt (x : Die) : Word := wordN (x.captBase.toNat * 2 ^ 12 + x.captLog.toNat * 2 ^ 58)

/-- FLT.BASE (R489). -/
def Die.fltBaseWord (x : Die) : Word := wordN (x.fltLog.toNat + x.fltBase.toNat * 2 ^ 12)

/-- FLT.PTR (R489). -/
def Die.fltPtr (x : Die) : Word := wordN (x.fltTail.toNat + x.fltHead.toNat * 2 ^ 21 + x.fltLost.toNat * 2 ^ 44)

/-- The highest temperature and droop codes of a die (R498). -/
def Die.hottest (x : Die) : Nat × Nat := x.cores.entries.foldl (fun m e => (max m.1 e.2.temp, max m.2 e.2.droop)) (0, 0)

/-- PWR.STAT (R498). -/
def Die.pwrStat (x : Die) : Word :=
  wordN (x.pwrMhz.toNat + x.pwrMv.toNat * 2 ^ 12 + x.hottest.2 % 16 * 2 ^ 24 + x.hottest.1 % 16 * 2 ^ 28 + x.pwrDie.toNat * 2 ^ 32 +
    x.pwrPkg.toNat * 2 ^ 48)

/-- BOOT.STAT (R495). -/
def Die.bootStat (x : Die) : Word := wordN (x.bootCode.toNat + x.fwVer.toNat * 2 ^ 32)

/-- LINK.STAT (R487). -/
def Link.word (l : Link) : Word := wordN (l.st.toNat + l.rtn.toNat * 2 ^ 4 + l.res.toNat * 2 ^ 8 + l.par.toNat * 2 ^ 24)

end Sys2Proof.Machine
end

