-- ==== Sys2Proof/Machine/Sampling.lean ====
section
/-! DEFINITION. The sampling and norm engine: when its commands start, what each does, and their end (R302–R322). -/

namespace Sys2Proof.Machine
open Sys2Proof

/-! ### Start, fault and completion (R302–R304) -/

/-- R302, R228: the command at the head of the queue starts in this clk. -/
def Core.smpStarts (k : Core) (clk : Nat) : Option (Cmd × Instr) :=
  match k.smp.queue with
  | [] => none
  | x :: _ =>
    match decodeTemplate .smp x.t with
    | .error _ => none
    | .ok i =>
      if x.at_ < clk && !k.closed && k.smp.running.isNone && !k.heldBack x.id clk then some (x, i) else none

/-- A core with its sampling engine changed. -/
def Core.modSmp (k : Core) (f : Sampling → Sampling) : Core := { k with smp := f k.smp }

/-- The sampling engine of the core that the step concerns changed. -/
def State.upSmp (s : State) (f : Sampling → Sampling) : State := s.upHere fun k => k.modSmp f

/-- R304: the running command ends in a fault (log 48, DEDUCED). -/
def State.smpFault (s : State) (x : Cmd) (f : MatFault) : State :=
  (s.upSmp fun m => { m with running := none, run := false }).faultCmd s.cur.die s.cur.core f.code x
    (if f.touched then [f.tile] else []) (f.range s.here)

/-- What a sampling command does: clk from its start to its completion, its checks, and its effect with the bytes that
it writes. -/
structure SmpMeaning where
  dur : Core → Nat
  check : Core → Except MatFault Unit
  op : State → Except MatFault (State × Nat)

/-- The command leaves the queue and runs; every write counted before has been added (R310, R313). -/
def State.smpTake (s : State) (x : Cmd) : State :=
  s.upSmp fun m =>
    { m.settle with
      queue := m.queue.filter fun y => y.id != x.id
      running := some { cmd := x, start := s.clk, laneFree := s.clk, done := s.clk } }

/-- R304, R440: the checks that come before those of the command itself. -/
def Core.smpFirst (k : Core) (i : Instr) : Except MatFault Unit :=
  let u := k.samplingUses i
  match (u.reads ++ u.accs).find? fun t => (k.tile t).leftEmpty with
  | some t => .error { code := 0x67, tile := t }
  | none => .ok ()

/-- R440: the completion handle of a command lies in the grant. -/
def State.smpHandle (s : State) (i : Instr) (x : Cmd) : Except MatFault Unit :=
  if s.handleOk s.cur.die s.cur.core (cphOf x.t) then .ok ()
  else .error { handleFault (s.here.samplingUses i) s.cur.die (cphOf x.t) with code := 0x61 }

/-- The running command completes n clk from now, with its byte count. -/
def State.smpEnds (s : State) (n bytes : Nat) : State :=
  (s.upSmp fun m => { m with running := m.running.map fun r => { r with done := s.clk + n, bytes := bytes } }).later n
    { who := s.cur, op := .samplingCommandComplete }

/-- A sampling command that has its whole effect at its start: it has then read its last byte (R229, R303; log 48, DEDUCED). -/
def State.smpStep (s : State) (i : Instr) (m : SmpMeaning) : Out :=
  match s.here.smpStarts s.clk with
  | none => .next s
  | some (x, _) =>
    if x.id ≠ s.cur.id then .next s
    else
      let k := s.here
      let s := s.smpTake x
      match allOf [k.smpFirst i, s.smpHandle i x, m.check k] with
      | .error f => .next (s.smpFault x f)
      | .ok _ =>
        match m.op s with
        | .error f => .next (s.smpFault x f)
        | .ok (s, bytes) => .next ((s.upHere fun k => k.freeEntries x.id s.clk false).smpEnds (m.dur k) bytes)

/-- SAMPLING_COMMAND_COMPLETE (R302): its ranges and tiles, the arrival at CPH, and TVALID of an ALB (R315). -/
def execSamplingCommandComplete (s : State) : Out :=
  match s.here.smp.running with
  | none => .next s
  | some r =>
    if r.cmd.id ≠ s.cur.id || s.clk < r.done then .next s
    else
      let s := s.upHere fun k => k.endCmd r.cmd.id s.clk false
      let s := s.upSmp fun m => { m with running := none, run := false }
      let s := match decodeTemplate .smp r.cmd.t with
        | .ok (.alb _ _ _ _ _ n _ _) => s.upSmp fun m => { m with tvalid := true, statK := n.toNat }
        | _ => s
      .next (s.sendArrival s.cur.die (cphOf r.cmd.t) r.bytes)

/-! ### What the commands share -/

/-- R304: a tile of a kind (none for any), of a size other than 0 and inside its partition. -/
def Core.smpTile (k : Core) (n : Nat) (acc : Option Bool) : Except MatFault Unit :=
  match k.tileFits n acc with
  | .ok _ => .ok ()
  | .error f => .error { f with code := 0x61 }

/-- R304: n bytes at o lie in a tile of a kind. -/
def Core.smpInside (k : Core) (t : Nat) (acc : Option Bool) (o n : Nat) : Except MatFault Unit :=
  allOf [k.smpTile t acc, mustHold ((k.tile t).covers o n) 0x61 t o n]

/-- R304: bytes that a command reads hold no uncorrectable error. -/
def Core.smpClean (k : Core) (t o n : Nat) : Except MatFault Unit := mustHold (!k.cistern.poisoned unitSram o n) 0x62 t o n

/-- TileBase plus an offset in 64-byte units. -/
def Core.tileAt (k : Core) (t off : Nat) : Nat := (k.tile t).lo + off * 64

/-! ### The norm tracker (R311–R313) -/

/-- Sums VOFF to VOFF + VLEN − 1 set to +0. -/
def Sampling.clearSums (m : Sampling) (voff vlen : Nat) : Sampling :=
  { m with sums := { entries := m.sums.entries.filter fun e => !(voff ≤ e.1 && e.1 < voff + vlen) }
           sumsBad := m.sumsBad.filter fun i => !(voff ≤ i && i < voff + vlen) }

/-- R311: another active channel's entries overlap these. -/
def Sampling.overlaps (m : Sampling) (c voff vlen : Nat) : Bool :=
  (List.range 4).any fun i =>
    let ch := vget m.ch i {}
    i != c && ch.act && rangesMeet ch.voff ch.vlen voff vlen

/-- NTEN (R311): its read range is released in its start clk. -/
def execNten (cph : BitVec 16) (ch : BitVec 2) (tile : BitVec 8) (off len : BitVec 16) (fmt : BitVec 2) (mode : BitVec 1)
    (ncol : BitVec 15) (voff : BitVec 14) (vlen : BitVec 15) (s : State) : Out :=
  let c := ch.toNat
  let t := tile.toNat
  s.smpStep (.nten cph ch tile off len fmt mode ncol voff vlen)
    { dur := fun _ => (vlen.toNat + 15) / 16 + 1
      check := fun k =>
        allOf [k.smpInside t none (k.tileAt t off.toNat) (len.toNat * 64), mustBe (len != 0) 0x61 t,
               mustBe (!k.smp.overlaps c voff.toNat vlen.toNat) 0x66 t]
      op := fun s =>
        let lo := s.here.tileAt t off.toNat
        .ok (s.upSmp fun m =>
          { (m.clearSums voff.toNat vlen.toNat) with
            ch := m.ch.setIfInBounds c { bad := false, act := true, fmt := fmt.toNat, rows := mode == 1, vlen := vlen.toNat
                                         voff := voff.toNat, ncol := ncol.toNat, lo := lo, len := len.toNat * 64 } }, 0) }

/-- NTOFF (R312). -/
def execNtoff (cph : BitVec 16) (ch : BitVec 2) (s : State) : Out :=
  s.smpStep (.ntoff cph ch)
    { dur := fun _ => 1
      check := fun _ => .ok ()
      op := fun s => .ok (s.upSmp fun m => { m with ch := m.ch.setIfInBounds ch.toNat { vget m.ch ch.toNat {} with act := false } }, 0) }

/-- R313: the sums of a channel as the bytes that NTRD writes. -/
def Sampling.sumBytes (m : Sampling) (ch : NormCh) : Nat :=
  rowOfLanesNat 4 ((List.range ch.vlen).map fun i => (m.sums.get 0 ((ch.voff + i) % 16384)).toNat)

/-- NTRD (R313). -/
def execNtrd (cph : BitVec 16) (ch : BitVec 2) (ot : BitVec 8) (oo : BitVec 16) (clr : BitVec 1) (s : State) : Out :=
  let c := ch.toNat
  let t := ot.toNat
  s.smpStep (.ntrd cph ch ot oo clr)
    { dur := fun k => ((vget k.smp.ch c {}).vlen + 15) / 16 + 2
      check := fun k =>
        let x := vget k.smp.ch c {}
        allOf [mustBe (x.vlen != 0) 0x66 t, k.smpInside t none (k.tileAt t oo.toNat) (wholeLines (x.vlen * 4)),
               if k.smp.sumsBad.any fun i => x.voff ≤ i && i < x.voff + x.vlen then .error { code := 0x62, tile := t, touched := false }
               else .ok ()]
      op := fun s =>
        let k := s.here
        let x := vget k.smp.ch c {}
        let n := wholeLines (x.vlen * 4)
        let s := s.enginePut s.cur.die s.cur.core (k.tileAt t oo.toNat) n (k.smp.sumBytes x) false
        .ok (if clr = 1 then s.upSmp fun m => m.clearSums x.voff x.vlen else s, n) }

/-! ### The alias table (R314, R315) -/

/-- 1, and the comparison x < 1 of values that are not NaN. -/
def fpOne : Fp := .fin false 1 0

/-- Round(x, FP64, rne). -/
def to64 (x : Fp) : Fp := roundFp fp64 .rne 0 x

/-- R315: one step after another of the pairing of small and large entries: (prob, alias) of those removed, and those
left. -/
def aliasPairs (q : Tab Fp) : List Nat → List Nat → Nat → List (Nat × Nat × Nat) × List Nat
  | s :: small, l :: large, n + 1 =>
    let qs := q.get (.zero false) s
    let prob := (roundInt 0 0xFFFFFFFE .rdn 0 (Fp.mul qs (.fin false 1 32))).toNat
    let new := to64 (Fp.add .rne (Fp.add .rne (q.get (.zero false) l) qs) (.fin true 1 0))
    let q := q.set l new
    let r := if new.lt fpOne then aliasPairs q (small ++ [l]) large n else aliasPairs q small (l :: large) n
    ((s, prob, l) :: r.1, r.2)
  | small, large, _ => ([], small ++ large)

/-- R315: the entries (prob, alias) and factors of a table for weights w, and S. -/
def aliasTable (w : List Fp) : List (Nat × Nat) × List Fp × Fp :=
  let n := w.length
  let total := w.foldl (fun a x => to64 (Fp.add .rne a x)) (.zero false)
  let isZero := fun (x : Fp) => match x with | .zero _ => true | _ => false
  let whole := (List.range n).map fun k => (0xFFFFFFFF, k)
  if isZero total then (whole, w.map fun _ => .zero false, total)
  else
    let q := w.map fun x => fdiv fp64 .rne (Fp.mul x (fpOfInt n)) total
    let f := w.map fun x => if isZero x then Fp.zero false else fdiv fp64 .rne total x
    let idx := (List.range n).zip q
    let r := aliasPairs { entries := idx } ((idx.filter fun e => e.2.lt fpOne).map (·.1))
      ((idx.filter fun e => !e.2.lt fpOne).map (·.1)) (2 * n + 1)
    let tab := r.1.foldl (fun (t : Tab (Nat × Nat)) e => t.set e.1 e.2) { entries := (List.range n).zip whole }
    (tab.entries.map (·.2), f, total)

/-- R315: a norm that ALB refuses. -/
def badNorm (c : Nat) : Bool :=
  match fp32.decode c with
  | .nan => true
  | .inf _ => true
  | .fin n _ _ => n
  | .zero _ => false

/-- The FP32 codes of n raw values at a cistern byte. -/
def Core.rawF32 (k : Core) (o n : Nat) : List Nat := (List.range n).map fun i => k.cistern.readNat (o + 4 * i) 4

/-- R315: w of one pair of squared norms. -/
def pairWeight (a b : Nat) : Fp :=
  match Fp.mul (fp32.decode a) (fp32.decode b) with
  | .zero _ => .zero false
  | x => to64 x.sqrt

/-- The bytes of a table (R314). -/
def tableBytes (t : List (Nat × Nat) × List Fp × Fp) : Nat :=
  rowOfLanesNat 8 ((t.1.map fun e => e.1 + e.2 * 2 ^ 32) ++ t.2.1.map fun f => fp64.encode f)

/-- ALB (R314, R315). -/
def execAlb (cph : BitVec 16) (at_ : BitVec 8) (ao : BitVec 16) (bt : BitVec 8) (bo : BitVec 16) (n : BitVec 15)
    (tt : BitVec 8) (to_ : BitVec 16) (s : State) : Out :=
  let len := n.toNat
  let s' := match s.here.smpStarts s.clk with
    | some (x, _) => if x.id = s.cur.id then s.upSmp fun m => { m with tvalid := false } else s
    | none => s
  s'.smpStep (.alb cph at_ ao bt bo n tt to_)
    { dur := fun _ => 2 * len + 24
      check := fun k =>
        let a := k.tileAt at_.toNat ao.toNat
        let b := k.tileAt bt.toNat bo.toNat
        let t := k.tileAt tt.toNat to_.toNat
        allOf [k.smpInside at_.toNat none a (4 * len), k.smpInside bt.toNat none b (4 * len),
               k.smpInside tt.toNat (some false) t (16 * len),
               mustHold (!rangesMeet a (4 * len) t (16 * len) && !rangesMeet b (4 * len) t (16 * len)) 0x61 tt.toNat t (16 * len),
               k.smpClean at_.toNat a (4 * len), k.smpClean bt.toNat b (4 * len),
               mustHold (!(k.rawF32 a len).any badNorm) 0x63 at_.toNat a (4 * len),
               mustHold (!(k.rawF32 b len).any badNorm) 0x63 bt.toNat b (4 * len)]
      op := fun s =>
        let k := s.here
        let w := ((k.rawF32 (k.tileAt at_.toNat ao.toNat) len).zip (k.rawF32 (k.tileAt bt.toNat bo.toNat) len)).map
          fun e => pairWeight e.1 e.2
        let t := aliasTable w
        let s := s.enginePut s.cur.die s.cur.core (k.tileAt tt.toNat to_.toNat) (16 * len) (tableBytes t) false
        .ok (s.upSmp fun m => { m with sum := BitVec.ofNat 64 (fp64.encode t.2.2) }, 16 * len) }

/-! ### Drawing and accumulating (R316–R321) -/

/-- The fields of an SMPL (R317). -/
structure SmplArgs where
  ot : Nat
  start : Bool
  /-- A comes from scratch (AS = 1) -/
  raw : Bool
  p0 : Nat
  at_ : Nat
  aoff : Nat
  bt : Nat
  boff : Nat
  tt : Nat
  toff : Nat
  n : Nat
  deriving DecidableEq, Repr

/-- R304, R317: the checks of an SMPL. -/
def SmplArgs.check (a : SmplArgs) (k : Core) : Except MatFault Unit :=
  let out := k.tile a.ot
  allOf [k.smpTile a.ot (some true), mustBe (4096 ≤ out.bytes) 0x61 a.ot,
    mustBe (!k.mat.redundant || (out.bytes % 256 == 0 && 4096 ≤ out.half)) 0x61 a.ot,
    (if a.raw then k.smpInside a.at_ (some false) (k.tileAt a.at_ a.aoff) (64 * a.n)
     else if a.p0 + (a.n + 31) / 32 ≤ 64 then .ok () else .error { code := 0x61, tile := a.ot, touched := false }),
    k.smpInside a.bt (some false) (k.tileAt a.bt a.boff) (64 * a.n),
    k.smpInside a.tt (some false) (k.tileAt a.tt a.toff) (16 * a.n)]

/-- R316: draw t: the pair that it selects, or its fault. -/
def SmplArgs.draw (a : SmplArgs) (k : Core) (t : Nat) : Except MatFault Nat :=
  let base := k.tileAt a.tt a.toff
  let r := (randBits k.smp.seed (BitVec.ofNat 64 t)).toNat
  let j := r / 2 ^ 32 * a.n / 2 ^ 32
  let e := k.cistern.readNat (base + 8 * j) 8
  let prob := e % 2 ^ 32
  let alias_ := e / 2 ^ 32
  match k.smpClean a.tt (base + 8 * j) 8 with
  | .error f => .error f
  | .ok _ =>
    if a.n ≤ alias_ then .error { code := 0x64, tile := a.tt, span := ownSpan (base + 8 * j) 8 }
    else
      let p := if r % 2 ^ 32 < prob || prob = 0xFFFFFFFF then j else alias_
      let ab := k.tileAt a.at_ a.aoff + 64 * p
      match allOf [k.smpClean a.tt (base + 8 * a.n + 8 * p) 8, (if a.raw then k.smpClean a.at_ ab 64
                      else if (List.range 32).any fun i => k.panelBad (a.p0 + p / 32) i (p % 32) then
                        .error { code := 0x62, tile := a.ot, touched := false }
                      else .ok ()),
                   k.smpClean a.bt (k.tileAt a.bt a.boff + 64 * p) 64] with
      | .error f => .error f
      | .ok _ => .ok p

/-- 32 raw BF16 values at a cistern byte. -/
def Core.rawBf16 (k : Core) (o : Nat) : List Fp :=
  (List.range 32).map fun i => Sys2Proof.bf16.decode (k.cistern.readNat (o + 2 * i) 2)

/-- R317: A[·][k], B[k][·] and f[k]. -/
def SmplArgs.operands (a : SmplArgs) (k : Core) (p : Nat) : List Fp × List Fp × Fp :=
  (if a.raw then k.rawBf16 (k.tileAt a.at_ a.aoff + 64 * p)
   else (List.range 32).map fun i => Sys2Proof.bf16.decode (k.panel (a.p0 + p / 32) i (p % 32)),
   k.rawBf16 (k.tileAt a.bt a.boff + 64 * p),
   fp64.decode (k.cistern.readNat (k.tileAt a.tt a.toff + 8 * a.n + 8 * p) 8))

/-- R318: one row of the accumulator with a_i·b_j·c added. -/
def accRow (x : Fp) (bs : List Fp) (c : Fp) (old : List Nat) : List Nat :=
  (old.zip bs).map fun e => fp32.encode (fadd fp32 .rne (fp32.decode e.1) (roundFp fp32 .rne 0 (Fp.mul (Fp.mul x e.2) c)))

/-- A row of the output tile written, and its copy in redundant mode (R321). -/
def State.putAccRow (s : State) (ot i : Nat) (row : List Nat) : State :=
  let k := s.here
  let t := k.tile ot
  let v := rowOfLanesNat 4 row
  let s := s.enginePut s.cur.die s.cur.core (t.lo + 128 * i) 128 v false
  if k.mat.redundant then s.enginePut s.cur.die s.cur.core (t.lo + t.half + 128 * i) 128 v false else s

/-- R318: a draw accumulated into Acc and Q. -/
def SmplArgs.accumulate (a : SmplArgs) (s : State) (p : Nat) : State :=
  let k := s.here
  let o := a.operands k p
  let c := o.2.2
  let norm := fun (xs : List Fp) => to64 (sumProducts (xs.map fun x => Fp.mul x x))
  let step := to64 (Fp.mul (Fp.mul (norm o.1) (norm o.2.1)) (Fp.mul c c))
  let q := fadd fp64 .rne (fp64.decode k.smp.q.toNat) step
  let s := ((List.range 32).zip o.1).foldl (fun s e =>
    s.putAccRow a.ot e.1 (accRow e.2 o.2.1 c (s.here.f32Row ((s.here.tile a.ot).lo + 128 * e.1)))) s
  s.upSmp fun m => { m with q := BitVec.ofNat 64 (fp64.encode q) }

/-- R318: what Check finds after s draws: V when F and Q are finite, and the reason of a stop, if any. -/
def SmplArgs.verdict (a : SmplArgs) (k : Core) (n : Nat) : Option Fp × Option Nat :=
  let acc := (List.range 32).flatMap fun i => k.f32Row ((k.tile a.ot).lo + 128 * i)
  let f := acc.foldl (fun x c => ffma fp64 (fp32.decode c) (fp32.decode c) x) (.zero false)
  let q := fp64.decode k.smp.q.toNat
  if f.nonFinite || q.nonFinite then (none, some 3)
  else
    let i := fun (z : Nat) => fpOfInt z
    let v := fdiv fp64 .rne (to64 (Fp.add .rne q (fdiv fp64 .rne f (i n)).negate)) (i (n * (n - 1)))
    let tau := fp32.decode k.smp.tau.toNat
    let lim := to64 (Fp.mul (Fp.mul tau tau) (fdiv fp64 .rne f (i (n * n))))
    let le := !v.isNan && !lim.isNan && (v.lt lim || v.same lim)
    (some v, if le then some 1 else if n = k.smp.nmax.toNat then some 2 else none)

/-- R308: the final count of a stopped product. -/
def Sampling.fileCount (m : Sampling) (tile : Nat) : Sampling :=
  let find := fun (t : Bool × Nat × Nat → Bool) => (List.range 8).find? fun i => t (vget m.fcnt i (false, 0, 0))
  let i := match find fun e => e.1 && e.2.1 == tile with
    | some i => i
    | none => (find fun e => !e.1).getD (m.stops % 8)
  { m with fcnt := m.fcnt.setIfInBounds i (true, tile, m.cnt.toNat), stops := m.stops + 1 }

/-- R318: Stop: the status, the final count, the read ranges (R229), and completion 2 clk later (R320). -/
def State.smplStop (s : State) (a : SmplArgs) (reason : Nat) : State :=
  ((s.upHere fun k => k.freeEntries s.cur.id s.clk false).upSmp fun m => { m.fileCount a.ot with reason := reason, run := false, done := true }).smpEnds 2 4096

/-- R318, R323: draw s is at a check point; or at one where a save may take the rest. -/
def Sampling.checks (m : Sampling) (n : Nat) : Bool :=
  m.nmin.toNat ≤ n && (n == m.nmin.toNat || n % m.chk.toNat == 0 || n == m.nmax.toNat)

/-- R323: the rest of an SMPL goes back to the head of its queue, with START := 0; its tiles leave filling, and it executes no
more (R307). -/
def State.smplRequeue (s : State) (x : Cmd) : State :=
  (s.upHere fun k => k.endCmd x.id s.clk false).upSmp fun m => { m with running := none, run := false, queue := { x with t := x.t &&& ~~~((1 : Template) <<< 95), pos := 0 } :: m.queue }

/-- The next step of a running SMPL n clk from now: 0 a draw, 1 its landing, 2 the end of a check, 3 the fault of a
draw. -/
def State.smplLater (s : State) (i : Instr) (n kind val : Nat) : State :=
  s.later n { who := { s.cur with n := kind, val := BitVec.ofNat 64 val }, op := i }

/-- R304: the fault of a draw n clk from now. -/
def State.smplFails (s : State) (i : Instr) (n : Nat) (f : MatFault) : State :=
  let place : Nat × Nat := match f.span with
    | some (.cistern _ _ o, len) => (o, len)
    | _ => (0, 0)
  s.smplLater i n 3 (f.code + f.tile * 2 ^ 8 + (if f.touched then 2 ^ 16 else 0) + place.2 % 2 ^ 13 * 2 ^ 20 + place.1 * 2 ^ 40)

/-- R316, R320: a draw: the count advances, its accumulation lands 6 clk later, and the next draw follows unless a check
is due or the rest is saved. -/
def State.smplDraw (s : State) (i : Instr) (a : SmplArgs) : State :=
  let k := s.here
  match a.draw k k.smp.cnt.toNat with
  | .error f => s.smplFails i 6 f
  | .ok p =>
    let n := k.smp.cnt.toNat + 1
    let s := (s.upSmp fun m => { m with cnt := BitVec.ofNat 32 n }).smplLater i 6 1 p
    if k.smp.checks n || (k.closed && n % k.smp.chk.toNat = 0) then s else s.smplLater i 1 0 0

/-- R304: the poison that the accumulation of a draw meets in Acc. -/
def SmplArgs.accFault (a : SmplArgs) (k : Core) : Except MatFault Unit := k.smpClean a.ot (k.tile a.ot).lo 4096

/-- R323: an SMPL ends in a fault: the count is that of the draws that have landed. -/
def State.smplEndsIn (s : State) (x : Cmd) (f : MatFault) : State :=
  (s.upSmp fun m => { m with cnt := BitVec.ofNat 32 x.pos }).smpFault x f

/-- R318, R320, R323: the accumulation of a draw lands; the last one before a check starts it, and the last one before a
save ends the run (log 48, DEDUCED). -/
def State.smplLand (s : State) (i : Instr) (a : SmplArgs) (x : Cmd) : State :=
  match a.accFault s.here with
  | .error f => s.smplEndsIn x f
  | .ok _ =>
    let s := a.accumulate s s.cur.val.toNat
    let m := s.here.smp
    let landed := x.pos + 1
    let s := s.upSmp fun m => { m with running := m.running.map fun r => { r with cmd := { r.cmd with pos := landed } } }
    if landed < m.cnt.toNat then s
    else if m.checks landed then s.smplLater i 34 2 0
    else if s.here.closed && landed % m.chk.toNat = 0 then s.smplRequeue x
    else s

/-- R318, R323: the end of a check: a stop, the next draw, or the rest saved. -/
def State.smplChecked (s : State) (i : Instr) (a : SmplArgs) (x : Cmd) : State :=
  let r := a.verdict s.here s.here.smp.cnt.toNat
  let s := match r.1 with
    | some v => s.upSmp fun m => { m with var := BitVec.ofNat 64 (fp64.encode v) }
    | none => s
  match r.2 with
  | some reason => s.smplStop a reason
  | none => if s.here.closed then s.smplRequeue x else s.smplLater i 1 0 0

/-- R307, R308, R318: the status of an SMPL that starts, and the final count that goes. -/
def Sampling.smplBegins (m : Sampling) (a : SmplArgs) : Sampling :=
  { (if a.start then m.voidCount a.ot else m) with statTile := a.ot, run := true, done := false, reason := 0 }

/-- R318: the start of an SMPL (log 48, DEDUCED). -/
def State.smplStart (s : State) (i : Instr) (a : SmplArgs) (x : Cmd) : State :=
  let k := s.here
  let s := (s.smpTake x).upSmp fun m => m.smplBegins a
  match allOf [k.smpFirst i, s.smpHandle i x, a.check k] with
  | .error f => s.smpFault x f
  | .ok _ =>
    let s :=
      if a.start then
        (List.range 32).foldl (fun s j => s.putAccRow a.ot j (List.replicate 32 0)) (s.upSmp fun m => { m with cnt := 0, q := 0 })
      else s
    let s := s.upSmp fun m =>
      { m with running := m.running.map fun r => { r with cmd := { r.cmd with pos := m.cnt.toNat } } }
    if s.here.smp.nmax.toNat ≤ s.here.smp.cnt.toNat then s.smplStop a 2 else s.smplLater i 4 0 0

/-- R304, R323: the fault of a draw, once the earlier draws have landed (log 48, DEDUCED). -/
def State.smplFault (s : State) (x : Cmd) : State :=
  let v := s.cur.val.toNat
  let n := v / 2 ^ 20 % 2 ^ 13
  s.smplEndsIn x { code := v % 2 ^ 8, tile := v / 2 ^ 8 % 2 ^ 8, touched := v / 2 ^ 16 % 2 == 1
                   span := if n = 0 then none else ownSpan (v / 2 ^ 40) n }

/-- SMPL (R317–R320): its start, or the next step of its run. -/
def execSmpl (cph : BitVec 16) (ot : BitVec 8) (start asrc : BitVec 1) (p0 : BitVec 6) (at_ : BitVec 8) (ao : BitVec 16)
    (bt : BitVec 8) (bo : BitVec 16) (tt : BitVec 8) (to_ : BitVec 16) (n : BitVec 15) (s : State) : Out :=
  let i : Instr := .smpl cph ot start asrc p0 at_ ao bt bo tt to_ n
  let a : SmplArgs :=
    { ot := ot.toNat, start := start == 1, raw := asrc == 1, p0 := p0.toNat, at_ := at_.toNat, aoff := ao.toNat
      bt := bt.toNat, boff := bo.toNat, tt := tt.toNat, toff := to_.toNat, n := n.toNat }
  match s.here.smp.running with
  | some r =>
    if r.cmd.id ≠ s.cur.id then .next s
    else
      match s.cur.n with
      | 0 => .next (s.smplDraw i a)
      | 1 => .next (s.smplLand i a r.cmd)
      | 2 => .next (s.smplChecked i a r.cmd)
      | _ => .next (s.smplFault r.cmd)
  | none =>
    match s.here.smpStarts s.clk with
    | some (x, _) => if x.id = s.cur.id then .next (s.smplStart i a x) else .next s
    | none => .next s

/-! ### Register commands (R322) -/

/-- A register command that completes after n clk. -/
def State.smpSet (s : State) (i : Instr) (f : Sampling → Sampling) : Out :=
  s.smpStep i { dur := fun _ => 1, check := fun _ => .ok (), op := fun s => .ok (s.upSmp f, 0) }

/-- SSET (R322). -/
def execSset (cph : BitVec 16) (tau : BitVec 32) (nmin nmax : BitVec 24) (chk : BitVec 13) (s : State) : Out :=
  s.smpSet (.sset cph tau nmin nmax chk) fun m => { m with tau := tau, nmin := nmin, nmax := nmax, chk := chk }

/-- SSEED (R322); a capture of the running stroke records it (R412). -/
def execSseed (cph : BitVec 16) (seed : BitVec 64) (s : State) : Out :=
  s.smpSet (.sseed cph seed) fun m => { m with seed := seed }

/-- SCNT (R322). -/
def execScnt (cph : BitVec 16) (cnt : BitVec 32) (s : State) : Out := s.smpSet (.scnt cph cnt) fun m => { m with cnt := cnt }

/-- SMP.STAT (R307). -/
def Sampling.statWord (m : Sampling) : Nat :=
  let bit := fun (b : Bool) (i : Nat) => if b then 2 ^ i else 0
  m.statK % 2 ^ 15 + bit m.tvalid 27 + bit m.done 28 + bit m.run 29 + m.reason % 4 * 2 ^ 30 + m.statTile % 256 * 2 ^ 32

/-- The SVAR record (R322). -/
def Sampling.varRecord (m : Sampling) : Nat :=
  m.sum.toNat + m.cnt.toNat * 2 ^ 64 + m.var.toNat * 2 ^ 128 + m.q.toNat * 2 ^ 192 + m.statWord * 2 ^ 256 +
  m.seed.toNat * 2 ^ 320 + m.tau.toNat * 2 ^ 384 + m.nmin.toNat * 2 ^ 416 + m.nmax.toNat * 2 ^ 448 + m.chk.toNat * 2 ^ 480

/-- R306: the values of a record keep the limits of their registers. -/
def recordLegal (v : Nat) : Bool :=
  let f := fun (b n : Nat) => v / 2 ^ (8 * b) % 2 ^ (8 * n)
  let tauOk := match fp32.decode (f 48 4) with
    | .nan => false
    | x => !x.neg
  f 8 8 < 2 ^ 32 && tauOk && 2 ≤ f 52 4 && f 52 4 ≤ f 56 4 && f 56 4 < 2 ^ 24 && 1 ≤ f 60 2 && f 60 2 ≤ 4096

/-- The registers as a record gives them. -/
def Sampling.loadRecord (m : Sampling) (v : Nat) : Sampling :=
  let f := fun (b : Nat) => v / 2 ^ (8 * b)
  { m with sum := BitVec.ofNat 64 (f 0), cnt := BitVec.ofNat 32 (f 8), var := BitVec.ofNat 64 (f 16), q := BitVec.ofNat 64 (f 24)
           seed := BitVec.ofNat 64 (f 40), tau := BitVec.ofNat 32 (f 48), nmin := BitVec.ofNat 24 (f 52)
           nmax := BitVec.ofNat 24 (f 56), chk := BitVec.ofNat 13 (f 60) }

/-- SVAR with DIR 0 (R322). -/
def execSvarStore (cph : BitVec 16) (ot : BitVec 8) (oo : BitVec 16) (s : State) : Out :=
  s.smpStep (.svarStore cph ot oo)
    { dur := fun _ => 3
      check := fun k => k.smpInside ot.toNat none (k.tileAt ot.toNat oo.toNat) 64
      op := fun s =>
        let k := s.here
        .ok (s.enginePut s.cur.die s.cur.core (k.tileAt ot.toNat oo.toNat) 64 k.smp.varRecord false, 64) }

/-- SVAR with DIR 1 (R322). -/
def execSvarLoad (cph : BitVec 16) (ot : BitVec 8) (oo : BitVec 16) (s : State) : Out :=
  s.smpStep (.svarLoad cph ot oo)
    { dur := fun _ => 3
      check := fun k =>
        let o := k.tileAt ot.toNat oo.toNat
        allOf [k.smpInside ot.toNat none o 64, k.smpClean ot.toNat o 64,
               mustBe (recordLegal (k.cistern.readNat o 64)) 0x65 ot.toNat]
      op := fun s =>
        let k := s.here
        .ok (s.upSmp fun m => m.loadRecord (k.cistern.readNat (k.tileAt ot.toNat oo.toNat) 64), 0) }

end Sys2Proof.Machine
end

