-- ==== Sys2Proof/Machine/SaveArea.lean ====
section
/-! DEFINITION. Launch descriptors and the save area: how the state of a context lies in memory (R34, R218, R221, R446,
R447, R454, R455). -/

namespace Sys2Proof.Machine
open Sys2Proof

/-- Fields (offset in bytes, number of bytes, value) as one little-endian number. -/
def imageOf (fs : List (Nat × Nat × Nat)) : Nat := fs.foldl (fun v f => v + f.2.2 % 2 ^ (8 * f.2.1) * 2 ^ (8 * f.1)) 0

/-- The words of a vector from an offset on. -/
def wordFields {n : Nat} (at_ : Nat) (v : Vector Word n) : List (Nat × Nat × Nat) :=
  (List.range n).map fun i => (at_ + 8 * i, 8, (vget v i 0).toNat)

/-! ### Tiles (R221) -/

/-- The code of STATE (R221). -/
def TileState.code : TileState → Nat
  | .empty => 0
  | .filling => 1
  | .ready => 2
  | .draining => 3

/-- The state of a code. -/
def TileState.ofCode (n : Nat) : TileState :=
  match n % 4 with
  | 0 => .empty
  | 1 => .filling
  | 2 => .ready
  | _ => .draining

/-- A tile entry as its 128 bits. -/
def Tile.image (t : Tile) : Nat :=
  t.base % 2 ^ 14 + t.size % 2 ^ 15 * 2 ^ 30 + bitN t.acc 45 + t.state.code * 2 ^ 46 + t.ver.toNat * 2 ^ 96

/-- The tile entry of 128 bits. -/
def tileOf (v : Nat) : Tile :=
  { base := v % 2 ^ 14, size := v / 2 ^ 30 % 2 ^ 15, acc := v / 2 ^ 45 % 2 == 1, state := .ofCode (v / 2 ^ 46)
    ver := BitVec.ofNat 32 (v / 2 ^ 96) }

/-! ### The header of a launch descriptor (R446, R447) -/

/-- R447: the checks of a header of format `fmt`, with the words of its tile table. -/
def launchOk (v fmt : Nat) (tile : Nat → Nat) : Bool :=
  let p := partOf (wordN (imageF v 16 8))
  imageF v 0 1 == fmt && imageF v 1 1 < 16 && 1 ≤ imageF v 2 2 && imageF v 2 2 < 4096 && imageF v 4 4 < 2 &&
  imageF v 74 6 == 0 && imageF v 112 144 == 0 && 4 ≤ p.regg && p.regg + p.scrg + p.accg == 256 &&
  imageF v 24 4 < imageF v 28 4 && imageF v 28 4 ≤ 16384 &&
  ((List.range 32).all fun i =>
    let w := wordN (imageF v (256 + 8 * i) 8)
    if i < 5 then sgOf w == (i, 0) else !sgRefused w) &&
  ((List.range 256).all fun i => let t := tileOf (tile i); t.size == 0 || p.admits t)

/-- The context that a header describes (R446). -/
def contextOf (v : Nat) : Context :=
  { valid := true, prio := BitVec.ofNat 4 (imageF v 1 1), asid := BitVec.ofNat 12 (imageF v 2 2)
    root := BitVec.ofNat 45 (imageF v 8 8 / 2 ^ 11), slo := imageF v 24 4, shi := imageF v 28 4
    jobs := BitVec.ofNat 256 (imageF v 32 32), dlc := BitVec.ofNat 64 (imageF v 64 8), gang := BitVec.ofNat 16 (imageF v 72 2) }

/-- A core that runs no context: what belongs to the core and not to a context stays (R433, R450). -/
def Core.emptied (k : Core) : Core :=
  { last := k.last, sw := k.sw + 1, turn := k.turn, tmo := k.tmo, topo := k.topo, temp := k.temp, droop := k.droop
    health := k.health, tlb := k.tlb, switch := k.switch }

/-- What the header of a launch or of a restore sets. -/
def Core.headed (k : Core) (v : Nat) : Core :=
  { k with
    ctx := contextOf v
    part := partOf (wordN (imageF v 16 8))
    trapVec := BitVec.ofNat 62 (imageF v 88 8 / 4)
    nfPol := imageF v 96 8 % 2 == 1
    nfOff := BitVec.ofNat 20 (imageF v 104 8 / 2 ^ 10)
    sg := Vector.ofFn fun i => sgOf (wordN (imageF v (256 + 8 * i.val) 8)) }

/-- Templates laid out as TPL from an offset of an image on, over the entries of a store. -/
def templatesOf (img at_ : Nat) (old : Tab TemplateEntry) : Tab TemplateEntry :=
  { entries := (List.range 4).flatMap fun e => (List.range 64).map fun i =>
      (e * 64 + i, { (old.get {} (e * 64 + i)) with t := BitVec.ofNat 128 (imageF img (at_ + 4096 * e + 16 * i) 16), loading := [] }) }

/-- R447: a core as an accepted launch leaves it, but for the thread of TASK. -/
def Core.launched (k : Core) (v : Nat) : Core :=
  let tile := fun i =>
    let t := tileOf (imageF v (512 + 16 * i) 16)
    { t with state := if t.acc then .empty else .ready, ver := 0 }
  { (k.emptied.headed v) with
    tiles := { entries := (List.range 256).map fun i => (i, tile i) }
    tmpl := if imageF v 4 4 % 2 = 1 then templatesOf v 4608 {} else {} }

/-! ### Slots (R34, R455) -/

/-- R34: a store of the record lies in 128 bytes from its lowest offset on (log 40, DEDUCED). -/
def Landing.fits (l : Landing) : Bool :=
  let lo := l.cells.foldl (fun m b => min m b.1) (2 ^ 20)
  l.cells.all fun b => b.1 < lo + 128

/-- R34: an entry of the landing record as 160 bytes (log 40, DEDUCED). -/
def Landing.image (l : Landing) (seq : Nat) : Nat :=
  let lo := l.cells.foldl (fun m b => min m b.1) (2 ^ 20)
  let store := l.kind == .store && l.fits
  let data := if store then l.cells.foldl (fun v b => putByte v (b.1 - lo) b.2) 0 else l.data.toNat
  let mask := if store then (l.cells.foldl (fun (v : BitVec 128) b => v ||| (1 <<< (b.1 - lo))) 0).toNat else l.bytes.toNat
  let kind := match l.kind with
    | .row => 0
    | .latch => 1
    | .store => 2
  let dest := match l.kind with
    | .row => l.row % 2 ^ 13
    | .latch => 0
    | .store => (if store then lo else l.row) % 2 ^ 20
  data + mask * 2 ^ 1024 + (dest + seq % 16 * 2 ^ 48 + l.due % 16 * 2 ^ 52 + l.unit % 8 * 2 ^ 59 + kind * 2 ^ 62) * 2 ^ 1152
where
  /-- a number with byte i replaced -/
  putByte (v i : Nat) (b : Byte) : Nat := v - v / 2 ^ (8 * i) % 256 * 2 ^ (8 * i) + b.toNat * 2 ^ (8 * i)

/-- The landing of 160 bytes, with a number; `old` gives what the entry does not hold. -/
def landingOf (v id : Nat) (old : Option Landing) : Landing :=
  let d := v / 2 ^ 1152
  let dest := d % 2 ^ 20
  let data : Row := BitVec.ofNat 1024 v
  let mask : BitVec 128 := BitVec.ofNat 128 (v / 2 ^ 1024)
  let kind : LandKind := match d / 2 ^ 62 % 4 with
    | 0 => .row
    | 2 => .store
    | _ => .latch
  let cells := (List.range 128).filterMap fun i => if mask.getLsbD i then some (dest + i, data.extractLsb' (8 * i) 8) else none
  let new : Landing :=
    { id := id, due := d / 2 ^ 52 % 16, kind := kind, unit := d / 2 ^ 59 % 8, row := dest, data := data, bytes := mask
      cells := if kind == .store then cells else [], sw := 0, fromRec := false, arrival := none }
  match old with
  | none => new
  | some o =>
    { new with
      id := o.id, pc := o.pc, cls := o.cls, arrival := o.arrival
      data := if kind == .store then o.data else data
      row := if kind == .store then o.row else dest
      bytes := if kind == .store then o.bytes else mask
      cells := if kind == .store && !o.fits then o.cells else new.cells }

/-- R455: the section of a slot (log 70, DEDUCED). -/
def Slot.image (x : Slot) (slot : Nat) : Nat :=
  imageOf (
    [(0, 8, bitN (x.st != .free) 0 + x.bar.d % 16 * 2 ^ 8), (8, 8, x.pc.toNat), (16, 8, (x.seqStat slot).toNat),
     (24, 8, x.seqCtl.toNat), (32, 8, x.seqLrec.toNat), (40, 8, x.task.getD (2 ^ 32 - 1) + bitN x.arrived.isSome 32),
     (48, 8, x.bar.base.toNat), (56, 4, x.bar.iter), (60, 4, x.bar.r0), (640, 8, x.lsDepth), (800, 8, x.trapPc.toNat),
     (808, 8, x.trapCause.toNat), (816, 8, x.trapVal.toNat), (824, 8, x.trapInfo.toNat), (832, 8, x.trapStat.toNat)] ++
    wordFields 64 x.x ++ wordFields 576 x.vw ++ wordFields 648 x.lsIdx ++ wordFields 696 x.lsTop ++ wordFields 744 x.lsEnd ++
    wordFields 840 x.trapScr ++
    ((List.range x.lrec.length).zip x.lrec).map (fun e => (1024 + 160 * e.1, 160, e.2.image e.1)) ++
    (List.range 32).flatMap fun l =>
      [(2304 + 16 * l, 8, (vget x.bs.win l 0).toNat), (2312 + 16 * l, 1, vget x.bs.cur l 0), (2314 + 16 * l, 2, vget x.bs.ref l 0)])

/-- The words of an image from an offset on. -/
def wordsOf (v at_ n : Nat) : Vector Word n := Vector.ofFn fun i => wordN (imageF v (at_ + 8 * i.val) 8)

/-- R455: the slot of a section; `old` gives what the section does not hold, and `id` numbers its landings. A blocked or
parked slot becomes READY at its word (log 70, DEDUCED). -/
def slotOf (v id : Nat) (old : Slot) : Slot :=
  let stat := imageF v 16 8
  let task := imageF v 40 4
  let n := imageF v 32 8 % 16
  let lrec := (List.range n).map fun j => landingOf (imageF v (1024 + 160 * j) 160) (id + j) old.lrec[j]?
  let inh := stat / 2 % 2 == 1
  { st := if imageF v 0 1 % 2 = 1 then .ready else .free
    pc := alignPc (wordN (imageF v 8 8))
    x := wordsOf v 64 64
    pend := old.pend
    lateX := old.lateX
    lateRow := old.lateRow
    vw := wordsOf v 576 8
    inh := inh
    priv := stat % 2 == 1
    dbgp := imageF v 24 1 / 2 % 2 == 1
    chkw := imageF v 24 1 % 2 == 1
    lrec := lrec
    armed := !inh && !lrec.isEmpty
    lsDepth := imageF v 640 8 % 8
    lsIdx := wordsOf v 648 6
    lsTop := wordsOf v 696 6
    lsEnd := wordsOf v 744 6
    trapPc := wordN (imageF v 800 8)
    trapCause := BitVec.ofNat 6 (imageF v 808 8)
    trapVal := wordN (imageF v 816 8)
    trapInfo := wordN (imageF v 824 8)
    trapDepth := BitVec.ofNat 3 (imageF v 832 8 / 2)
    trapPriv := imageF v 832 8 % 2 == 1
    trapScr := wordsOf v 840 2
    bs := { win := Vector.ofFn fun l => wordN (imageF v (2304 + 16 * l.val) 8)
            cur := Vector.ofFn fun l => imageF v (2312 + 16 * l.val) 1
            ref := Vector.ofFn fun l => imageF v (2314 + 16 * l.val) 2 }
    bar := { base := wordN (imageF v 48 8), d := imageF v 0 8 / 2 ^ 8 % 16, iter := imageF v 56 4, r0 := imageF v 60 4 }
    task := if task = 2 ^ 32 - 1 then none else some task
    guards := old.guards
    arrived := if imageF v 44 1 % 2 = 1 then old.arrived else none
    arrivedAt := old.arrivedAt }

/-! ### Planes, sums and panels (R454) -/

/-- The code of an absent weight. -/
def absentWeight : Nat := 0x7FF8000000000001

/-- R454, R201: a weight as FP64; the cells of a plane that a fault left undefined are free values (log 16, DESIGN
CHOICE). -/
def Plane.code (p : Plane) (i : Nat) : Nat :=
  match p.undef with
  | some st => (Config.undefWeight st i).toNat
  | none => match p.w.find i with
    | some x => fp64.encode x
    | none => if p.blank && i < 1024 then 0 else absentWeight

/-- A plane from its 2,048 codes and its attributes. -/
def planeOf (img at_ : Nat) (depth kn nc : Nat) (had valid : Bool) : Plane :=
  { w := { entries := (List.range 2048).filterMap fun i =>
            let c := imageF img (at_ + 8 * i) 8
            if c = absentWeight then none else some (i, fp64.decode c) }
    blank := false
    depth := depth, kn := kn, nc := nc, had := had, valid := valid }

/-- The matrix engine as the header (MSTAT bytes 8 to 12 at byte 1,192) and the planes give it. -/
def matrixOf (hdr planes : Nat) : Matrix :=
  let f := imageF hdr 1192 1
  let bit := fun i => f / 2 ^ i % 2 == 1
  { active := planeOf planes 0 (f % 2) (imageF hdr 1193 1) (imageF hdr 1194 1) (bit 2) (bit 4)
    shadow := planeOf planes 16384 (f / 2 % 2) (imageF hdr 1195 1) (imageF hdr 1196 1) (bit 3) (bit 5)
    redundant := bit 6 }

/-- The sampling registers and the norm tracker as the header and the sums give them; `old` gives the regions watched. -/
def samplingOf (hdr sums : Nat) (old : Sampling) : Sampling :=
  let stat := imageF hdr 1088 8
  let m := ({ old with queue := [], running := none } : Sampling).loadRecord (imageF hdr 1024 64)
  let ch := fun (i : Nat) =>
    let w := imageF hdr (1160 + 8 * i) 8
    { (vget old.ch i {}) with
      ncol := w % 2 ^ 15, voff := w / 2 ^ 15 % 2 ^ 14, vlen := w / 2 ^ 29 % 2 ^ 15, rows := w / 2 ^ 44 % 2 == 1
      fmt := w / 2 ^ 45 % 4, act := w / 2 ^ 47 % 2 == 1, bad := w / 2 ^ 48 % 2 == 1 }
  { m with
    statK := stat % 2 ^ 15, tvalid := stat / 2 ^ 27 % 2 == 1, done := stat / 2 ^ 28 % 2 == 1, run := stat / 2 ^ 29 % 2 == 1
    reason := stat / 2 ^ 30 % 4, statTile := stat / 2 ^ 32 % 256
    fcnt := Vector.ofFn fun i =>
      let w := imageF hdr (1096 + 8 * i.val) 8
      (w / 2 ^ 40 % 2 == 1, w / 2 ^ 32 % 256, w % 2 ^ 32)
    ch := Vector.ofFn fun i => ch i.val
    sums := { entries := (List.range 16384).filterMap fun i =>
                let c := imageF sums (4 * i) 4
                if c = 0 then none else some (i, BitVec.ofNat 32 c) } }

/-! ### The whole area (R454) -/

/-- R454: the granules that a save writes. -/
def Core.savedGranules (k : Core) : List Nat :=
  (List.range 256).filter fun g =>
    g < k.part.regg || k.tiles.entries.any fun e => e.2.size != 0 && e.2.lo < (g + 1) * 4096 && g * 4096 < e.2.lo + e.2.bytes

/-- The header of a save area (R454); `bits` are the nodes whose completion bits are set. -/
def Core.saveHeader (k : Core) (bits : List Nat) : Nat :=
  let c := k.ctx
  let win := fun (i : Nat) => let w := k.win i; bitN w.err 0 + bitN w.gang 1 + w.reason % 2 ^ 18 * 2 ^ 32
  imageOf (
    [(0, 1, 2), (1, 1, c.prio.toNat), (2, 2, c.asid.toNat), (8, 8, c.root.toNat * 2 ^ 11), (16, 8, k.part.word.toNat), (24, 4, c.slo),
     (28, 4, c.shi), (32, 32, c.jobs.toNat), (64, 8, c.dlc.toNat), (72, 2, c.gang.toNat), (88, 8, k.trapVec.toNat * 4),
     (96, 8, bitN k.nfPol 0), (104, 8, k.nfCbase.toNat), (1024, 64, k.smp.varRecord), (1088, 8, k.smp.statWord),
     (1192, 5, k.mat.statRecord / 2 ^ 64), (1200, 8, k.player.curWord.toNat), (1208, 8, k.nfStat.toNat),
     (1216, 32, (k.savedGranules.map fun g => 2 ^ g).sum), (1248, 4, k.player.grant),
     (1536, 512, (bits.map fun n => 2 ^ n).sum)] ++
    ((List.range 32).map fun i => (256 + 8 * i, 8, (sgWord (vget k.sg i (0, 0))).toNat)) ++
    ((List.range 64).map fun i => (512 + 8 * i, 8, win i)) ++
    ((List.range 8).map fun i => (1096 + 8 * i, 8, (fcntWord (vget k.smp.fcnt i (false, 0, 0))).toNat)) ++
    (List.range 4).map fun i => (1160 + 8 * i, 8, (vget k.smp.ch i {}).word.toNat))

/-- R335: the descriptor of a window. -/
def Window.image (w : Window) : Nat := imageOf (wordFields 0 w.routes ++ [(32, 8, w.ctrl.toNat), (40, 8, w.base.toNat), (48, 8, w.limit.toNat)])

/-- The sections of a save area with their offsets and sizes; the engine entries, the macro unit and the player stand
in the model's table of saves under a number (log 42, DESIGN CHOICE). -/
def Core.saveSections (k : Core) (bits : List Nat) (number : Nat) : List (Nat × Nat × Nat) :=
  [(0, 4096, k.saveHeader bits),
   (0x1000, 4096, imageOf ((List.range 256).map fun i => (16 * i, 16, (k.tile i).image))),
   (0x6000, 16384, imageOf (k.tmpl.entries.map fun e => (4096 * (e.1 / 64) + 16 * (e.1 % 64), 16, e.2.t.toNat))),
   (0xA000, 4096, imageOf ((List.range 64).map fun i => (64 * i, 64, (k.win i).image))),
   (0xB000, 16384, imageOf (k.macro_.store.entries.map fun e => (8 * e.1, 8, e.2.toNat))),
   (0x10000, 32768, imageOf ((List.range 2048).flatMap fun i => [(8 * i, 8, k.mat.active.code i), (16384 + 8 * i, 8, k.mat.shadow.code i)])),
   (0x18000, 65536, imageOf (k.smp.sums.entries.map fun e => (4 * e.1, 4, e.2.toNat))),
   (0x28000, 8, number),
   (0x30000, 131072, imageOf (k.panels.entries.map fun e => (2 * e.1, 2, e.2.toNat)))] ++
  ((List.range 4).map fun i => (0x2000 + 0x1000 * i, 4096, (k.slot i).image i)) ++
  k.savedGranules.map fun g => (0x50000 + 4096 * g, 4096, k.cistern.readNat (4096 * g) 4096)

/-- Bytes of a whole save area (log 42, DESIGN CHOICE). -/
def saveBytes : Nat := 0x150000

/-- What of a core stands beside the save area (log 42, DESIGN CHOICE). -/
def Core.saveSide (k : Core) (d c : Nat) (mat cpy smp : List Cmd) : SaveSide :=
  { die := d, core := c, mat := mat, cpy := cpy, smp := smp, macro_ := k.macro_, player := k.player, norm := k.smp, tmpl := k.tmpl
    matDone := (k.mat.completed, k.mat.lastFault, k.mat.lastInfo), panelsBad := k.panelsBad
    slots := k.slots }

/-- R456: a core as the sections of a save area give it, but for its engine entries; `rd` reads an offset of the area,
`side` is what stands beside it. -/
def Core.restored (k : Core) (rd : Nat → Nat → Nat) (side : SaveSide) (id : Nat) : Core :=
  let hdr := rd 0 4096
  let tiles := rd 0x1000 4096
  let wins := rd 0xA000 4096
  let micro := rd 0xB000 16384
  let panels := rd 0x30000 131072
  let cur := imageF hdr 1200 8
  let nf := imageF hdr 1208 8
  let map := imageF hdr 1216 32
  let win := fun (i : Nat) =>
    let st := imageF hdr (512 + 8 * i) 8
    { (windowOf (imageF wins (64 * i) 64)) with
      err := st % 2 == 1, gang := st / 2 % 2 == 1, reason := st / 2 ^ 32 % 2 ^ 18, gen := id }
  { (k.emptied.headed hdr) with
    slots := Vector.ofFn fun i => slotOf (rd (0x2000 + 0x1000 * i.val) 4096) (id + 8 * i.val) (vget side.slots i.val {})
    cistern := ((List.range 256).filter fun g => map / 2 ^ g % 2 = 1).foldl
      (fun m g => m.writeNat (4096 * g) 4096 (rd (0x50000 + 4096 * g) 4096)) {}
    tmpl := templatesOf (rd 0x6000 16384) 0 side.tmpl
    tiles := { entries := (List.range 256).map fun i => (i, tileOf (imageF tiles (16 * i) 16)) }
    mat := { matrixOf hdr (rd 0x10000 32768) with
      completed := side.matDone.1, lastFault := side.matDone.2.1, lastInfo := side.matDone.2.2 }
    panels := { entries := (List.range 65536).filterMap fun i =>
                  let c := imageF panels (2 * i) 2
                  if c = 0 then none else some (i, BitVec.ofNat 16 c) }
    panelsBad := side.panelsBad
    smp := samplingOf hdr (rd 0x18000 65536) side.norm
    wins := Vector.ofFn fun i => win i.val
    macro_ := { side.macro_ with store := { entries := (List.range 2048).map fun i => (i, wordN (imageF micro (8 * i) 8)) } }
    player := { side.player with act := cur / 2 ^ 63 % 2 == 1, cur := cur % 2 ^ 32, grant := imageF hdr 1248 4 }
    nfSeen := nf / 2 ^ 34 % 2 == 1
    nfSrc := BitVec.ofNat 2 (nf / 2 ^ 32)
    nfToken := BitVec.ofNat 32 nf }

end Sys2Proof.Machine
end

