-- ==== Sys2Proof/Machine/SyncEvents.lean ====
section
/-! DEFINITION. What reaches the sync engine by itself: arrivals of engines, and the waking of WAITA (R265, R271, R273,
R460). -/

namespace Sys2Proof.Machine
open Sys2Proof

/-- R185, R240: what waited on a core for an engine arrival: nothing, a VSTA of the core, or a copy, which waits for one
acknowledgement less. -/
def State.arrivalDone (s : State) (d c ack : Nat) : State :=
  if ack < 2 then s
  else if ack % 2 = 0 then s.dropArrivals d c fun a => a.id == (ack - 2) / 2
  else s.modRun d c ((ack - 3) / 2) fun r => { r with acks := r.acks - 1 }

/-- ENGINE_ARRIVAL (R271): bytes at a phaser of a die; n = 1 looks again at a phase that may be complete (R272). -/
def execEngineArrival (s : State) : Out :=
  let d := s.cur.die
  let o := s.cur.id
  if s.syncWaits (.sync d o) then .next (s.later 1 { who := s.cur, op := .engineArrival })
  else if s.cur.n = 1 then .next (s.afterArrival d (.sync d o) false)
  else .next ((s.engineArrive d o s.cur.val.toNat).arrivalDone d s.cur.core s.cur.n)

/-- PHASER_ERROR_ARRIVAL (R273). -/
def execPhaserErrorArrival (s : State) : Out :=
  let d := s.cur.die
  if s.syncWaits (.sync d s.cur.id) then .next (s.later 1 { who := s.cur, op := .phaserErrorArrival })
  else .next (s.errorArrive d s.cur.id s.cur.val.toNat)

/-- The waiting WAITA of a number, with its home. -/
def State.waitaOf (s : State) (id : Nat) : Option (Nat × SyncReq) :=
  s.dies.entries.findSome? fun e => (e.2.waiters.find? fun w => w.req.id == id).map fun w => (e.1, w.req)

/-- R460: the watch table keeps the lines that some WAITA still waits for. -/
def State.trimWatch (s : State) : State :=
  let lines := s.dies.entries.flatMap fun e => e.2.waiters.filterMap fun w =>
    match w.req.loc with
    | .host a => some (a / 64)
    | _ => none
  { s with watch := s.watch.filter lines.contains }

/-- A WAITA is answered and waits no more. -/
def State.endWaita (s : State) (home : Nat) (r : SyncReq) (v : Word) : State :=
  ((s.dropWaiter home r.id).trimWatch).answered r [v]

/-- R265: a WAITA compares again; a wake on host memory, or a poll that ends the wait, is an input of a running
stroke (R412). -/
def State.compareWaita (s : State) (woken : Bool) (home : Nat) (r : SyncReq) : State :=
  let x := s.syncWaita r
  let ends := match x.2 with
    | .done (_ :: _) => true
    | _ => false
  let x := match r.loc with
    | .host a => if woken || ends then (x.1.captureInput home 4 a (s.peek r.loc 8), x.2) else x
    | _ => x
  match x.2 with
  | .done (v :: _) => x.1.endWaita home r v
  | _ => x.1

/-- R280: a BRCMP that waits goes on once GEN of its slot is no longer what it found. -/
def State.compareBrcmp (s : State) (home : Nat) (r : SyncReq) : State :=
  if s.peek (r.loc.plus (16 * (r.b.toNat % 4))) 4 = r.n then s else (s.dropWaiter home r.id).answered r [BitVec.ofNat 64 r.n]

/-- WAITA_WAKE (R265, R280): a write to the line of a WAITA, or of a BRCMP that waits. -/
def execWaitaWake (s : State) : Out :=
  match s.waitaOf s.cur.id with
  | some (home, r) =>
    match r.op with
    | .brcmp _ _ _ _ => .next (s.compareBrcmp home r)
    | _ => .next (s.compareWaita true home r)
  | none => .next s

/-- WAITA_TIMEOUT (R265). -/
def execWaitaTimeout (s : State) : Out :=
  match s.waitaOf s.cur.id with
  | some (home, r) => .next (s.endWaita home r 2)
  | none => .next s

/-- WAITA_POLL (R460): without a watch entry the word is read every 256 clk. -/
def execWaitaPoll (s : State) : Out :=
  match s.waitaOf s.cur.id with
  | some (home, r) =>
    let s := s.compareWaita false home r
    .next (if (s.waitaOf r.id).isSome then s.later 256 { who := s.cur, op := .waitaPoll } else s)
  | none => .next s

end Sys2Proof.Machine
end

