-- ==== Sys2Proof/Machine/Context.lean ====
section
/-! DEFINITION. Context switches (R38, R220, R250, R323, R348, R427, R433–R456) and the host's access to memory
(R458–R460). -/

namespace Sys2Proof.Machine
open Sys2Proof

/-! ### Physical ranges that the device itself reads and writes -/

/-- n bytes at a physical address as the switch reaches them: every die of the torus (R443); none where it cannot. -/
def State.physRange (s : State) (d pa n : Nat) : Option Loc :=
  match s.physical d 768 pa, s.physical d 768 (pa + n - 1) with
  | some l, some _ => some l
  | _, _ => none

/-- n bytes at a physical address; none where they cannot be accessed (R449). -/
def State.physRead (s : State) (d pa n : Nat) : Option Nat :=
  (s.physRange d pa n).bind fun l => if s.bad l n then none else some (s.peek l n)

/-- n bytes written at a place, with the watchers of its lines (R265). -/
def State.put (s : State) (l : Loc) (n v : Nat) : State :=
  let last := l.plus (64 * ((n - 1) / 64))
  let s := (List.range ((n + 63) / 64)).foldl (fun s i => s.snoop (l.plus (64 * i))) (s.poke l n v)
  if (l.plus (n - 1)).line = last.line then s else s.snoop (l.plus (n - 1))

/-! ### The start of a switch (R448) -/

/-- A switch descriptor that is valid (R448): OP, FLAGS, CORE, the bytes that must be 0, and the alignments (log 68, DEDUCED). -/
def switchValid (v : Nat) : Bool :=
  let op := imageF v 0 1
  let restore := op == 3 || (op == 2 && imageF v 1 1 % 2 == 1)
  let inOk := if op == 1 || op == 4 then true else imageF v 16 8 % (if restore then 4096 else 64) == 0
  op ≤ 4 && imageF v 1 1 < 4 && imageF v 2 2 < 768 && imageF v 4 4 < 65536 && imageF v 32 32 == 0 && imageF v 24 8 % 8 == 0 &&
  ((op != 1 && op != 2) || imageF v 8 8 % 4096 == 0) && inOk

/-- The step with which a switch begins. -/
def switchStep (op : Nat) : Instr :=
  match op with
  | 0 => .contextLaunch
  | 1 => .contextSave
  | 2 => .contextSaveInstall
  | 3 => .contextRestore
  | _ => .contextEnd

/-- R449: PRIO of the incoming image; none where it cannot be read. -/
def State.incomingPrio (s : State) (d pa : Nat) : Option Nat := (s.physRead d pa 64).map fun v => imageF v 1 1 % 16

/-- R342, R450: the window with an error through which the context that a switch would save has written (log 90, DEDUCED). -/
def State.saveError (s : State) (d c v : Nat) : Option Nat :=
  let k := s.core d c
  let op := imageF v 0 1
  let yields := imageF v 1 1 / 2 == 1 || (s.incomingPrio d (imageF v 16 8)).any fun p => p < k.ctx.prio.toNat
  if k.ctx.valid && (op == 1 || (op == 2 && yields)) then k.errWindow fun _ => true else none

/-- CTXSW (R448): the descriptor is read at issue; a switch of the core runs by itself (log 68, DEDUCED); a save of a context
with a window in error raises the remote error instead (R342; log 90, DEDUCED). -/
def execCtxsw (d a : BitVec 6) (s : State) : Out :=
  if !s.me.priv then s.noPrivilege 0
  else
    s.readBlock (s.rx a) 64 64 fun s v =>
      let die := s.cur.die
      let c := imageF v 2 2
      if c < 768 && (s.core die c).switch.isSome then s.variable d 1 none
      else if !switchValid v then
        (s.soon { who := { die := die, id := imageF v 4 4, n := 1, val := wordN (imageF v 24 8) }, op := .switchComplete }).variable d 0 none
      else if let some w := s.saveError die c v then s.raise causeRemote (wordN w) (wordN ((s.core die c).win w).reason)
      else
        let op := imageF v 0 1
        let w : Switch :=
          { op := op, rst := op == 3 || (op == 2 && imageF v 1 1 % 2 == 1), cph := imageF v 4 4, save := imageF v 8 8
            inp := imageF v 16 8, stat := imageF v 24 8, start := s.clk, startNs := s.timeNs die, step := .installed }
        let s := s.modCore die c fun k => { k with switch := some w }
        let ev : Ev := { who := { die := die, core := c, n := 2 * (imageF v 1 1 / 2) }, op := switchStep op }
        let s := if op == 0 || op == 3 then (s.later (1 + Config.latency s.fresh) ev).stamp else s.soon ev
        s.variable d 0 none

/-- A switch in progress changed. -/
def State.modSwitch (s : State) (d c : Nat) (f : Switch → Switch) : State :=
  s.modCore d c fun k => { k with switch := k.switch.map f }

/-- The switch of a core goes to its end with a code. -/
def State.endSwitch (s : State) (d c code : Nat) : State :=
  (s.modSwitch d c fun w => { w with step := .installed, code := code }).soon { who := { die := d, core := c }, op := .switchComplete }

/-! ### Installing a context (R447, R456) -/

/-- The commands that a save kept, in the order in which they had been issued, with their engines. -/
def SaveSide.commands (x : SaveSide) : List (Engine × Cmd) :=
  let tag := fun (e : Engine) (l : List Cmd) => l.map fun c => (e, c)
  insertAll (tag .mat x.mat ++ tag .cpy x.cpy ++ tag .smp x.smp) []
where
  /-- one command put before the first of a higher number -/
  insertOne (e : Engine × Cmd) : List (Engine × Cmd) → List (Engine × Cmd)
    | [] => [e]
    | f :: rest => if e.2.id < f.2.id then e :: f :: rest else f :: insertOne e rest
  /-- insertion sort by number -/
  insertAll : List (Engine × Cmd) → List (Engine × Cmd) → List (Engine × Cmd)
    | [], acc => acc
    | e :: rest, acc => insertAll rest (insertOne e acc)

/-- R456: a saved command issues again, with the transitions of R195; the expansion that had issued it knows its new
number. -/
def State.reissue (s : State) (d c : Nat) (e : Engine) (x : Cmd) : State :=
  match decodeTemplate e x.t with
  | .error _ => s
  | .ok i =>
    let new := { x with id := s.ids, at_ := s.clk }
    let renumber := fun (m : Macro) =>
      { m with run := m.run.map fun y => { y with cmds := y.cmds.map fun q => if q.2 = x.id then (q.1, new.id) else q } }
    (s.modCore d c fun k =>
      let k := k.enter e (k.uses e i x.desc) new
      { k with macro_ := renumber k.macro_ }).newId

/-- Slots that issue nothing until the switch is complete (R449). -/
def State.holdSlots (s : State) (d c : Nat) : State :=
  s.modCore d c fun k => { k with slots := k.slots.map fun x => { x with stopped := true } }

/-- R143, R446: the thread of TASK on slot 0, with the code of the switch (log 69, DEDUCED). -/
def State.launchTask (s : State) (d c task : Nat) : Nat × State :=
  if task = 0 then (0, s)
  else if task % 64 ≠ 0 then (2, s)
  else
    match s.readGlobal { die := d, core := c, asid := (s.core d c).ctx.asid.toNat, priv := false, xl := [] } task 64 with
    | (none, s) => (5, s)
    | (some v, s) => if v % 4 ≠ 0 then (2, s) else (0, s.newThread d c 0 (recordOf v 0))

/-- R447: a launch from the descriptor at a physical address, or the code that refuses it (log 69, DEDUCED). -/
def State.launchAt (s : State) (d c pa : Nat) : Nat × State :=
  match s.physRead d pa 4608 with
  | none => (5, s)
  | some v =>
    let all := if imageF v 4 4 % 2 = 1 then s.physRead d pa 20992 else some v
    match all with
    | none => (5, s)
    | some v =>
      if !launchOk v 1 fun i => imageF v (512 + 16 * i) 16 then (2, s)
      else
        let t := (s.modCore d c fun k => k.launched v).launchTask d c (imageF v 80 8)
        if t.1 = 0 then (0, (t.2.holdSlots d c).nextPart d c) else (t.1, s)

/-- R482: granules of a save area that carry an uncorrectable error stay poisoned in the cistern. -/
def State.restorePoison (s : State) (d c : Nat) (l : Loc) : State :=
  (List.range 32768).foldl (fun s i =>
    if s.bad (l.plus (0x50000 + 32 * i)) 32 then s.modMem (.cistern d c (32 * i)) fun m u o => m.spoil u o 32 else s) s

/-- R456: a restore from the save area at a physical address, or the code that refuses it. -/
def State.restoreAt (s : State) (d c pa : Nat) : Nat × State :=
  match s.physRange d pa saveBytes, s.physRead d pa 0x50000 with
  | some l, some v =>
    if !launchOk v 2 fun i => imageF v (0x1000 + 16 * i) 16 then (2, s)
    else
      let side := s.saves.get {} (imageF v 0x28000 8)
      let s := s.modCore d c fun k => k.restored (fun o n => s.peek (l.plus o) n) side s.ids
      let s := ({ s with ids := s.ids + 32 }).restorePoison d c l
      let s := side.commands.foldl (fun s e => s.reissue d c e.1 e.2) s
      let gid := side.player.gid
      let bits := (List.range 4096).filter fun n => imageF v (1536 + n / 8) 1 / 2 ^ (n % 8) % 2 = 1
      let s := s.modStroke d gid fun r => { r with bits := bits.foldl insertNat r.bits }
      let answered := (List.range 4).flatMap fun i => ((s.slot d c i).pend.filter (·.answered)).map fun p => (i, p)
      let s := answered.foldl (fun s e => s.landLater d c e.1 e.2.id (if e.2.sync then .syncResultLands else .variableLoadLanding)) s
      (0, (s.holdSlots d c).nextPart d c)
  | _, _ => (5, s)

/-- The incoming context of a switch is installed. -/
def State.installIncoming (s : State) (d c : Nat) (w : Switch) : State :=
  let r := if w.rst then s.restoreAt d c w.inp else s.launchAt d c w.inp
  r.2.endSwitch d c r.1

/-- R449, R493: a launch or restore onto a core that must be empty, of a cluster that is ready. -/
def State.installEmpty (s : State) : Out :=
  let d := s.cur.die
  let c := s.cur.core
  match s.here.switch with
  | none => .next s
  | some w =>
    if s.here.ctx.valid then .next (s.endSwitch d c 4)
    else if !(s.die d).rdy.getLsbD (8 + c / 192) then .next (s.endSwitch d c 5)
    else .next (s.installIncoming d c w)

/-- CONTEXT_LAUNCH (R446, R447, R456): OP 0. -/
def execContextLaunch (s : State) : Out := s.installEmpty

/-- CONTEXT_RESTORE (R456): OP 3. -/
def execContextRestore (s : State) : Out := s.installEmpty

/-! ### Stopping (R450 steps 1 and 2, R452) -/

/-- The place of a waiter is a phaser, whose line counts its waiters (R270). -/
def Loc.isPhaser (l : Loc) : Bool :=
  match l with
  | .sync _ o => o < 0x400000
  | _ => false

/-- R38, R141, R259: the wait that a slot holds is withdrawn where it waits at its home; an answer on its way still comes. The
MWAIT of a slot leaves the matrix queue, since its word has not issued (log 99, DEDUCED). -/
def State.withdrawWait (s : State) (d c i : Nat) : State :=
  match (s.slot d c i).wait with
  | .answer id =>
    let drop := fun (s : State) => s.modSlot d c i fun x => { x with wait := .word, pend := x.pend.filter fun p => p.id != id }
    match s.findPend d c i id with
    | none =>
      let m := (s.core d c).mat
      if m.running.any fun r => r.cmd.id == id then s
      else (s.modCore d c fun k => { k with mat := { m with queue := m.queue.filter fun x => x.id != id } }).modSlot d c i fun x =>
        { x with wait := .word }
    | some p =>
      if p.answered then s
      else
        match (s.dies.entries.find? fun e => e.2.waiters.any fun w => w.req.id == id) with
        | some (home, x) =>
          let l := (x.waiters.find? fun w => w.req.id == id).map fun w => w.req.loc
          let s := (s.dropWaiter home id).trimWatch
          let s := match l with
            | some l => if l.isPhaser then s.countWaiters home l else s
            | none => s
          let s := s.modCore d c fun k => { k with awaits := k.awaits.filter fun a => a.pkt.id != id }
          drop (s.dropPacket id)
        | none => s
  | .walk => s.modSlot d c i fun x => { x with wait := .word }
  | _ => s

/-- R450 step 1: what a slot does when a switch begins. -/
def State.askSlot (s : State) (d c i : Nat) : State :=
  match (s.slot d c i).st with
  | .ready => s.modSlot d c i fun x => { x with stopAsked := true }
  | .active => s.modSlot d c i fun x => { x with stopAsked := true }
  | _ => (s.modSlot d c i fun x => { x with stopped := true }).withdrawWait d c i

/-- R351, R450: the prefetched records return to the head of their queues, in their order. -/
def State.returnPrefetched (s : State) (d c : Nat) : State :=
  let hs := (s.core d c).prefetch.reverse
  (s.modDie d fun x => hs.foldl (fun x h => x.queueRec h true) x).modCore d c fun k => { k with prefetch := [] }

/-- R450: the stop of a core begins, with its deadline. -/
def State.beginStop (s : State) (d c : Nat) : State :=
  let s := (s.modSwitch d c fun w => { w with step := .stopping }).returnPrefetched d c
  let s := [0, 1, 2, 3].foldl (fun s i => s.askSlot d c i) s
  let dl := (s.die d).preDl.toNat
  if dl = 0 then s
  else s.later (s.clkOf d dl) { who := { die := d, core := c, val := wordN s.clk }, op := .hardStop }

/-- CONTEXT_SAVE (R450): OP 1. -/
def execContextSave (s : State) : Out :=
  if s.here.ctx.valid then .next (s.beginStop s.cur.die s.cur.core) else .next (s.endSwitch s.cur.die s.cur.core 4)

/-- CONTEXT_SAVE_INSTALL (R449, R450): OP 2: the save begins, unless the priority forbids it (n = 0); and later the
incoming context is installed (n = 1). With FORCE, n is 2 at the start. -/
def execContextSaveInstall (s : State) : Out :=
  let d := s.cur.die
  let c := s.cur.core
  match s.here.switch with
  | none => .next s
  | some w =>
    if s.cur.n = 1 then .next (s.installIncoming d c w)
    else if !s.here.ctx.valid then .next (s.endSwitch d c 4)
    else if s.cur.n = 2 then .next (s.beginStop d c)
    else
      match s.incomingPrio d w.inp with
      | none => .next (s.endSwitch d c 5)
      | some p => if s.here.ctx.prio.toNat ≤ p then .next (s.endSwitch d c 3) else .next (s.beginStop d c)

/-- CONTEXT_END (R450): OP 4. -/
def execContextEnd (s : State) : Out :=
  if s.here.ctx.valid then .next (s.beginStop s.cur.die s.cur.core) else .next (s.endSwitch s.cur.die s.cur.core 4)

/-- R38, R450: a slot has stopped: FREE, stopped before, or asked to stop and waiting for good. -/
def Slot.halts (x : Slot) : Bool := x.st == .free || x.stopped || (x.stopAsked && x.wait == .dead)

/-- R38: a slot that has stopped counts as such once its landings have performed. -/
def Slot.atRest (x : Slot) : Bool := x.halts && x.lands.isEmpty && !x.armed

/-- R38: a slot that stops at the word of its saved PC lets the entries of its landing record perform: the clk of the stop
stands for T of R36 (log 83, DEDUCED). -/
def State.settleRecords (s : State) (d c : Nat) : State :=
  [0, 1, 2, 3].foldl (fun s i =>
    if (s.slot d c i).halts then (((s.as { die := d, core := c, slot := i }).launchRecord).as s.cur) else s) s

/-- R452: a hard stop of one slot. -/
def State.hardStopSlot (s : State) (d c i : Nat) : State :=
  let x := s.slot d c i
  if x.halts then s
  else
    let s := (s.withdrawWait d c i).modSwitch d c fun w => { w with hstop := w.hstop ||| 2 ^ i }
    match x.task with
    | some h =>
      let s := match s.nodeOf d c i with
        | some (gid, node, _) => s.modStroke d gid fun r => { r with order := r.order.filter fun e => e.2.node != node }
        | none => s
      (s.modDie d fun y => y.queueRec h true).modSlot d c i fun x =>
        { x with st := .free, wait := .none, task := none, lrec := [], armed := false, stopped := true, stopAsked := false }
    | none =>
      let s := s.record d { unit := unitOfCore c, kind := 0x23, asid := (s.core d c).ctx.asid.toNat, d0 := wordN i, d1 := x.pc }
      let s := ((s.as { die := d, core := c, slot := i }).landRecord).as s.cur
      s.modSlot d c i fun x => { x with st := .blocked, wait := .exit, stopAsked := false }

/-- HARD_STOP (R452). -/
def execHardStop (s : State) : Out :=
  let d := s.cur.die
  let c := s.cur.core
  match s.here.switch with
  | none => .next s
  | some w =>
    if w.step == .stopping && w.start == s.cur.val.toNat then
      .next ([0, 1, 2, 3].foldl (fun s i => if (s.slot d c i).atRest then s else s.hardStopSlot d c i) s)
    else .next s

/-! ### Owed writes (R450 step 4) -/

/-- The expansions of a macro unit, the running one among them. -/
def Macro.expansions (m : Macro) : List Expansion := m.queue ++ (m.run.map (·.e)).toList

/-- R427: a pending result that an expansion will answer, on a core or in what a save keeps: it is saved as it stands. -/
def State.leads (s : State) (id : Nat) : Bool :=
  let awaits := fun (m : Macro) => m.expansions.any fun x => x.lid == id
  (s.dies.entries.any fun x => x.2.cores.entries.any fun e => awaits e.2.macro_) || s.saves.entries.any fun e => awaits e.2.macro_

/-- R220: the commands that have finished their micro-operation go back to the head of their queue. -/
def Core.stopMatrix (k : Core) (clk : Nat) : Core :=
  let out := k.mat.running.filter fun r => r.opEnd ≤ clk && r.opEnd < r.done
  let k := out.foldl (fun k r => k.endCmd r.cmd.id clk false) k
  { k with mat := { k.mat with
      queue := (out.map fun r => { r.cmd with bytes := r.bytes }) ++ k.mat.queue
      running := k.mat.running.filter fun r => !(r.opEnd ≤ clk && r.opEnd < r.done) } }

/-- R31, R38: a load whose data wait for an entry of a landing record that is saved as it stands. -/
def Core.heldByRecord (k : Core) (p : Pend) : Bool :=
  p.answered && k.rowHeld p && !({ k with slots := k.slots.map fun x => { x with lrec := [] } } : Core).rowHeld p

/-- R259, R450: an outstanding result that the save waits for. A load that R31 holds for a saved landing record goes with
it (log 83, DEDUCED). -/
def State.owedResult (s : State) (d c : Nat) (p : Pend) : Bool :=
  !(s.core d c).heldByRecord p && (p.answered || !s.leads p.id)

/-- R450: nothing of the context is owed any more. -/
def State.owesNothing (s : State) (d c : Nat) : Bool :=
  let k := s.core d c
  k.mat.running.isEmpty && (k.cpy.flight.all fun r => r.stage == 0) && k.smp.running.isNone && k.comb.isEmpty && k.awaits.isEmpty && k.arrivals.isEmpty &&
  (k.tmpl.entries.all fun e => e.2.loading.isEmpty) && (List.range 64).all (fun w => (k.win w).out == 0) &&
  k.slots.toList.all fun x => (x.pend.all fun p => !s.owedResult d c p) && (x.wait != .exit || !x.pend.isEmpty)

/-- R427: at its micro-operation boundary an OPT has its MA register advanced past the groups done. -/
def Macro.parked (m : Macro) : Macro :=
  { m with run := m.run.map fun x =>
      let i := uMa (m.store.get 0 x.upc)
      if x.opt = 0 then x else { (x.setReg i (x.reg i + wordN x.opt)) with opt := 0 } }

/-- R220, R250, R323: the commands that a save keeps leave their queues: of the matrix, copy and sampling engines. -/
def Core.takeQueues (k : Core) (clk : Nat) : (List Cmd × List Cmd × List Cmd) × Core :=
  let cpy := (k.cpy.flight.map (·.cmd)) ++ k.cpy.queue
  let all := k.mat.queue ++ cpy ++ k.smp.queue
  let k := all.foldl (fun k x => k.withdrawCmd x.id clk) k.settle
  ((k.mat.queue, k.cpy.aborted ++ cpy, k.smp.queue),
   { k with mat := { k.mat with queue := [] }, cpy := { k.cpy with queue := [], flight := [], aborted := [] }
            smp := { k.smp with queue := [] }, macro_ := k.macro_.parked })

/-! ### The copy and the end (R450 steps 5 and 6) -/

/-- R482: the poison of the granules that a save writes goes with their bytes. -/
def State.savePoison (s : State) (d c : Nat) (l : Loc) : State :=
  let k := s.core d c
  let units := k.cistern.poison.filter fun u => k.savedGranules.contains (u / 512)
  units.foldl (fun s u => s.modMem (l.plus (0x50000 + 8 * u)) fun m t o => m.spoil t o 8) s

/-- R450 step 5: the context copied to its save area; none where that cannot be accessed. -/
def State.saveTo (s : State) (d c pa : Nat) : Option State :=
  (s.physRange d pa saveBytes).map fun l =>
    let r := (s.core d c).takeQueues s.clk
    let bits := ((s.stroke d r.2.player.gid).map (·.bits)).getD []
    let number := s.ids + 1
    let s := ({ s with ids := number }).setCore d c r.2
    let s := (r.2.saveSections bits number).foldl (fun s f => s.put (l.plus f.1) f.2.1 f.2.2) s
    let s := s.savePoison d c l
    { s with saves := s.saves.set number (r.2.saveSide d c r.1.1 r.1.2.1 r.1.2.2) }

/-- R450 step 6: the core becomes empty. -/
def State.clearCore (s : State) (d c : Nat) : State :=
  (s.modCore d c fun k => k.emptied).modSwitch d c fun w => { w with step := .copied }

/-- R449, R450: the last steps of a switch whose core owes nothing (log 70, DEDUCED). -/
def State.leave (s : State) (d c : Nat) (w : Switch) : State :=
  let go := fun (s : State) (op : Instr) (n : Nat) =>
    (s.later (1 + Config.latency s.fresh) { who := { die := d, core := c, n := n }, op := op }).stamp
  if w.op = 4 then go (s.clearCore d c) .switchComplete 0
  else
    match s.saveTo d c w.save with
    | some s => if w.op = 2 then go (s.clearCore d c) .contextSaveInstall 1 else go (s.clearCore d c) .switchComplete 0
    | none =>
      let s := s.record d { unit := unitOfCore c, kind := 0x03, action := 9, asid := (s.core d c).ctx.asid.toNat
                            range := some (w.save, saveBytes) }
      go ((s.clearCore d c).modSwitch d c fun w => { w with code := 5 }) .switchComplete 0

/-- SAVE_CLOSE (R450 steps 3 and 4): tried in each clk of a save or an end: the engine queues close once every slot has
stopped, and the copy follows once nothing is owed. -/
def execSaveClose (s : State) : Out :=
  let d := s.cur.die
  let c := s.cur.core
  match s.here.switch with
  | none => .next s
  | some w =>
    match w.step with
    | .stopping =>
      let s := s.settleRecords d c
      if (s.here.slots.toList.all Slot.atRest) then
        let s := (s.modSwitch d c fun w => { w with step := .closed, closedAt := s.clk }).holdSlots d c
        let s := (s.modCore d c fun k => { k with closed := true }).drainWhere d c fun _ => true
        .next (s.later (s.clkOf d 8) { who := { die := d, core := c, id := s.clk }, op := .copySaveTimeout })
      else .next s
    | .closed =>
      let s := [0, 1, 2, 3].foldl (fun s i => s.withdrawWait d c i) s
      let s := (s.modCore d c fun k => k.stopMatrix s.clk).drainWhere d c fun _ => true
      .next (if s.owesNothing d c then s.leave d c w else s)
    | _ => .next s

/-- R449: the status word and the arrival at CPH. -/
def State.report (s : State) (d cph stat code hstop start : Nat) : State :=
  let us := min ((s.timeNs d - start) / 1000) (2 ^ 32 - 1)
  let s := match s.physRange d stat 8 with
    | some l => s.put l 8 (code + hstop * 2 ^ 8 + us * 2 ^ 32)
    | none => s
  s.sendArrival d (cph % 65536) 0

/-- SWITCH_COMPLETE (R449): the status word, the arrival, and then the slots may issue. With n = 1 it ends a switch whose
descriptor is invalid (log 68, DEDUCED). -/
def execSwitchComplete (s : State) : Out :=
  let d := s.cur.die
  let c := s.cur.core
  if s.cur.n = 1 then .next (s.report d s.cur.id s.cur.val.toNat 1 0 (s.timeNs d))
  else
    match s.here.switch with
    | none => .next s
    | some w =>
      let s := s.report d w.cph w.stat w.code w.hstop w.startNs
      .next (s.modCore d c fun k =>
        { k with switch := none, slots := k.slots.map fun x => { x with stopped := false, stopAsked := false } })

/-! ### The host (R458–R460) -/

/-- R458: where an offset of the HDM range lies: the HBM of die A, then that of die B. -/
def State.hdmLoc (s : State) (d o : Nat) : Option Loc :=
  let a := s.dieA d
  if o < 384 * 2 ^ 30 then s.physical a 768 (a * 2 ^ 39 + o)
  else if o < 768 * 2 ^ 30 then s.physical a 768 ((a + s.dims.1 * s.dims.2.1) * 2 ^ 39 + (o - 384 * 2 ^ 30))
  else none

/-- HOST_MEM_ACCESS (R458, R460): the host writes up to 8 bytes, the number in n modulo 16: HBM through CXL.mem, or with
n of 32 and more its own memory. A read, n of 16 and more, changes nothing. -/
def execHostMemAccess (s : State) : Out :=
  let bytes := min (s.cur.n % 16) 8
  let v := s.cur.val.toNat % 2 ^ (8 * bytes)
  if s.cur.n / 16 % 2 = 1 then .next s
  else if 32 ≤ s.cur.n then .next (s.put (.host (s.cur.id % 2 ^ 55)) bytes v)
  else if s.hostLink ≠ .cxl then .next s
  else
    match s.hdmLoc s.cur.die s.cur.id with
    | some l => .next (s.put l bytes v)
    | none => .next s

end Sys2Proof.Machine
end

