-- ==== Sys2Proof/Machine/Csr.lean ====
section
/-! DEFINITION. The control registers: reads, writes under their Access codes, and the writes that have a rule of their own
(R4, R19, R22, R107–R117, R139, R287, R384–R392, R413, R428–R430, R435–R437, R445, R458, R487, R489). -/

namespace Sys2Proof.Machine
open Sys2Proof

/-! ### Reads (R107, R108) -/

/-- A register of a slot. -/
def Slot.readReg (x : Slot) (slot n : Nat) : Option Word :=
  if n = 0x000 then some (x.seqStat slot)
  else if n = 0x001 then some x.seqCtl
  else if n = 0x002 then some x.seqLrec
  else if 0x008 ≤ n ∧ n ≤ 0x00F then some (vget x.vw (n - 0x008) 0)
  else if n = 0x010 then some (wordN x.lsDepth)
  else if 0x018 ≤ n ∧ n ≤ 0x01D then some (vget x.lsIdx (n - 0x018) 0)
  else if 0x020 ≤ n ∧ n ≤ 0x025 then some (vget x.lsTop (n - 0x020) 0)
  else if 0x028 ≤ n ∧ n ≤ 0x02D then some (vget x.lsEnd (n - 0x028) 0)
  else if n = 0x030 then some x.trapPc
  else if n = 0x031 then some (x.trapCause.setWidth 64)
  else if n = 0x032 then some x.trapVal
  else if n = 0x033 then some x.trapInfo
  else if n = 0x034 then some x.trapStat
  else if n = 0x036 then some (vget x.trapScr 0 0)
  else if n = 0x037 then some (vget x.trapScr 1 0)
  else none

/-- A register of scope core. -/
def Core.readReg (k : Core) (n : Nat) : Option Word :=
  let m := k.smp
  if n = 0x035 then some (k.trapVec ++ (0 : BitVec 2))
  else if n = 0x040 then some k.part.word
  else if n = 0x100 then some m.sum
  else if n = 0x101 then some (m.cnt.setWidth 64)
  else if n = 0x102 then some m.var
  else if n = 0x103 then some (m.tau.setWidth 64)
  else if n = 0x104 then some (m.nmin.setWidth 64)
  else if n = 0x105 then some (m.nmax.setWidth 64)
  else if n = 0x106 then some m.seed
  else if n = 0x107 then some (m.chk.setWidth 64)
  else if n = 0x108 then some m.q
  else if n = 0x109 then some (wordN m.statWord)
  else if 0x110 ≤ n ∧ n ≤ 0x117 then some (fcntWord (vget m.fcnt (n - 0x110) (false, 0, 0)))
  else if 0x120 ≤ n ∧ n ≤ 0x123 then some (vget m.ch (n - 0x120) {}).word
  else if n = 0x181 then some (wordN (k.topo.toNat * 2 ^ 6))
  else if n = 0x182 then some (k.turn.setWidth 64)
  else if n = 0x183 then some (k.tmo.setWidth 64)
  else if n = 0x246 then some k.player.curWord
  else if n = 0x280 then some (boolWord k.nfPol)
  else if n = 0x281 then some k.nfCbase
  else if n = 0x282 then some k.nfStat
  else if n = 0x288 then some k.macro_.stat
  else if n = 0x300 then some k.ctx.curWord
  else if n = 0x301 then some (wordN (k.ctx.root.toNat * 2 ^ 11))
  else if 0x360 ≤ n ∧ n ≤ 0x37F then some (sgWord (vget k.sg (n - 0x360) (0, 0)))
  else none

/-- A register of scope die; those whose fields are all WO read as 0. -/
def Die.readReg (x : Die) (n : Nat) : Option Word :=
  if n = 0x200 then some (x.dispDev.setWidth 64)
  else if n = 0x201 then some x.whStat
  else if n = 0x240 ∨ n = 0x241 ∨ n = 0x303 then some 0
  else if n = 0x242 then some x.grStat
  else if n = 0x243 then some x.grModeWord
  else if n = 0x244 then some x.grKey
  else if n = 0x245 then some x.grCapt
  else if n = 0x302 then some (x.preDl.setWidth 64)
  else if n = 0x380 then some (x.rdy.setWidth 64)
  else if n = 0x381 then some x.fltBaseWord
  else if n = 0x382 then some x.fltPtr
  else if n = 0x384 then some x.pwrStat
  else if n = 0x385 then some x.bootStat
  else if 0x388 ≤ n ∧ n ≤ 0x38D then some (vget x.links (n - 0x388) {}).word
  else none

/-- The value of a control register as a slot of a core reads it; none for a number that no chapter assigns (R107). -/
def State.readReg (s : State) (d c slot n : Nat) : Option Word :=
  if n = 0x003 then some (wordN s.clk)
  else if n = 0x180 then some (s.fabLoc d c)
  else if n = 0x383 then some (wordN (s.timeNs d))
  else
    match (s.slot d c slot).readReg slot n with
    | some v => some v
    | none => match (s.core d c).readReg n with
      | some v => some v
      | none => (s.die d).readReg n

/-! ### Writes without a rule of their own (R4) -/

/-- The RW bits of a register, as its map gives them (R4); registers without RW bits give 0. -/
def rwMask (n : Nat) : Word :=
  if n = 0x000 then 2
  else if n = 0x001 then 3
  else if 0x008 ≤ n ∧ n ≤ 0x00F then vwMask
  else if n = 0x010 then 7
  else if (0x018 ≤ n ∧ n ≤ 0x01D) ∨ (0x020 ≤ n ∧ n ≤ 0x025) ∨ (0x028 ≤ n ∧ n ≤ 0x02D) then BitVec.allOnes 64
  else if n = 0x030 ∨ n = 0x032 ∨ n = 0x033 ∨ n = 0x036 ∨ n = 0x037 then BitVec.allOnes 64
  else if n = 0x031 then 0x3F
  else if n = 0x034 then 0xF
  else if n = 0x035 then ~~~3
  else if n = 0x040 then 0x7FFFFFF
  else if n = 0x181 then 0x00FFFFFFFFFFFFC0
  else if n = 0x182 then 0xFFFFFFFFF
  else if n = 0x183 then 0xFFFFF
  else if n = 0x200 then 0xF
  else if n = 0x243 then 0xF
  else if n = 0x245 then 0xFCFFFFFFFFFFF000
  else if n = 0x280 then 1
  else if n = 0x281 then 0x3FFFFC00
  else if n = 0x301 then 0x00FFFFFFFFFFF800
  else if n = 0x302 then 0xFFFFFF
  else if 0x365 ≤ n ∧ n ≤ 0x37F then 0xEFFF
  else if n = 0x381 then 0x00FFFFFFFFFFF01F
  else if n = 0x382 then 0x3FFFFE00000
  else if 0x388 ≤ n ∧ n ≤ 0x38D then 3
  else 0

/-- A register of a slot set. -/
def Slot.writeReg (x : Slot) (n : Nat) (v : Word) : Slot :=
  if n = 0x001 then { x with chkw := v.getLsbD 0, dbgp := v.getLsbD 1 }
  else if 0x008 ≤ n ∧ n ≤ 0x00F then { x with vw := x.vw.setIfInBounds (n - 0x008) v }
  else if n = 0x010 then { x with lsDepth := v.toNat % 8 }
  else if 0x018 ≤ n ∧ n ≤ 0x01D then { x with lsIdx := x.lsIdx.setIfInBounds (n - 0x018) v }
  else if 0x020 ≤ n ∧ n ≤ 0x025 then { x with lsTop := x.lsTop.setIfInBounds (n - 0x020) v }
  else if 0x028 ≤ n ∧ n ≤ 0x02D then { x with lsEnd := x.lsEnd.setIfInBounds (n - 0x028) v }
  else if n = 0x030 then { x with trapPc := v }
  else if n = 0x031 then { x with trapCause := v.setWidth 6 }
  else if n = 0x032 then { x with trapVal := v }
  else if n = 0x033 then { x with trapInfo := v }
  else if n = 0x034 then { x with trapPriv := v.getLsbD 0, trapDepth := v.extractLsb' 1 3 }
  else if n = 0x036 then { x with trapScr := x.trapScr.setIfInBounds 0 v }
  else if n = 0x037 then { x with trapScr := x.trapScr.setIfInBounds 1 v }
  else x

/-- A register of scope core set; the W1C bits of NF.STAT cleared (R430). -/
def Core.writeReg (k : Core) (n : Nat) (v ones : Word) : Core :=
  if n = 0x035 then { k with trapVec := v.extractLsb' 2 62 }
  else if n = 0x040 then { k with part := partOf v }
  else if n = 0x181 then { k with topo := v.extractLsb' 6 50 }
  else if n = 0x182 then { k with turn := v.setWidth 36 }
  else if n = 0x183 then { k with tmo := v.setWidth 20 }
  else if n = 0x280 then { k with nfPol := v.getLsbD 0 }
  else if n = 0x281 then { k with nfOff := v.extractLsb' 10 20 }
  else if n = 0x282 then { k with nfSeen := k.nfSeen && !ones.getLsbD 34 }
  else if n = 0x301 then
    let root := v.extractLsb' 11 45
    { k with ctx := { k.ctx with root := root }, rooted := k.rooted || root != 0 }
  else if 0x365 ≤ n ∧ n ≤ 0x37F then { k with sg := k.sg.setIfInBounds (n - 0x360) (sgOf v) }
  else k

/-- A register of scope die set; the W1C bits of GR.STAT cleared (R389). A write of GR.CAPT begins its area anew (log 56,
DEDUCED). -/
def Die.writeReg (x : Die) (n : Nat) (v ones : Word) : Die :=
  if n = 0x200 then { x with dispDev := v.setWidth 4 }
  else if n = 0x242 then { x with grErr := x.grErr &&& ~~~(ones.setWidth 8) }
  else if n = 0x243 then { x with gmRec := v.getLsbD 0, gmRpl := v.getLsbD 1, gmCapt := v.getLsbD 2, gmRefine := v.getLsbD 3 }
  else if n = 0x245 then { x with captLog := v.extractLsb' 58 6, captBase := v.extractLsb' 12 44, captPos := 0, capOvf := false }
  else if n = 0x302 then { x with preDl := v.setWidth 24 }
  else if n = 0x382 then { x with fltHead := v.extractLsb' 21 21 }
  else x

/-! ### Writes with a rule of their own -/

/-- What a write does: the machine after it, or the fault that refuses it (cause, TRAP.VAL, TRAP.INFO). -/
abbrev RegResult := Except (Nat × Word × Word) State

/-- R19: a value of CORE.PART is accepted from the slot that the step concerns. -/
def State.partOk (s : State) (p : Part) : Bool :=
  let k := s.here
  let x := s.me
  let busy := fun (e : Engine) => k.queueUsed e || k.executing e
  4 ≤ p.regg && p.regg + p.scrg + p.accg == 256 &&
  (k.tiles.entries.all fun e => e.2.size == 0 || p.admits e.2) &&
  (x.vw.toList.all fun v => vwCount v == 0 || vwOk v ((p.regg + p.accg) * 32)) &&
  ((List.range 4).all fun i => i == s.cur.slot || (k.slot i).st == .free) &&
  !busy .mat && !busy .cpy && !busy .smp && !busy .vec &&
  x.lands.isEmpty && x.lrecCount == 0 && x.pend.all fun p => p.sync

/-- R19: a write of CORE.PART. -/
def State.writePart (s : State) (v : Word) : RegResult :=
  if s.partOk (partOf v) then .ok (s.upHere fun k => k.writeReg 0x040 v 0) else .error (causePartition, v, 0)

/-- R22: a write of view register n. -/
def State.writeView (s : State) (n : Nat) (v : Word) : RegResult :=
  let p := s.here.part
  if vwOk v ((p.regg + p.accg) * 32) then .ok (s.upMe fun x => x.writeReg (0x008 + n) (v &&& vwMask))
  else .error (causeView, wordN n, 0)

/-- R109: a write of SEQ.STAT; INH stays 1 while the landing record is pending. -/
def State.writeSeqStat (s : State) (v : Word) : RegResult :=
  .ok (s.upMe fun x => { x with inh := v.getLsbD 1 || (x.inh && x.lrecCount != 0) })

/-- R111: a write of LS.DEPTH. -/
def State.writeLsDepth (s : State) (v : Word) : RegResult :=
  if v.toNat % 8 = 7 then .error (causeLoopStack, 0, 0) else .ok (s.upMe fun x => x.writeReg 0x010 v)

/-- R287: a write of entry i of the scope table. -/
def State.writeSg (s : State) (i : Nat) (v : Word) : RegResult :=
  if i < 5 then .ok s
  else if sgRefused v then .error (causeScope, wordN i, 0)
  else .ok (s.upHere fun k => k.writeReg (0x360 + i) v 0)

/-- R429: a write of NF.CBASE (log 44, DEDUCED). -/
def State.writeNfCbase (s : State) (v : Word) : RegResult :=
  if v.toNat / 2 ^ 10 % 2 ^ 20 < 0x1000 then .error (causeAccess, v, 1)
  else .ok (s.upHere fun k => k.writeReg 0x281 v 0)

/-- R489, R494: a write of FLT.BASE: the ring, its pointers, and the readiness of what firmware has then prepared (log
71, DEDUCED). -/
def State.writeFltBase (s : State) (d : Nat) (v : Word) : State :=
  s.modDie d fun x =>
    { x with fltBase := v.extractLsb' 12 44, fltLog := v.setWidth 5, fltHead := 0, fltTail := 0, fltLost := 0
             rdy := x.rdy ||| 0x1C0000 }

/-- A retrain of link i of a die begins, unless one is under way; it may take 100 µs (R485, R487). -/
def State.startRetrain (s : State) (d i : Nat) : State :=
  let l := vget (s.die d).links i {}
  if l.retrain.isSome || 6 ≤ i then s
  else
    (s.modDie d fun x => { x with links := x.links.setIfInBounds i { l with retrain := some s.clk } }).later (s.clkOf d 100)
      { who := { die := d, n := i, id := s.clk }, op := .linkRetrainTimeout }

/-- R487: a write of LINK.STAT of link i: 0 while the link is down starts a retrain; any other write is ignored. -/
def State.writeLink (s : State) (d i : Nat) (v : Word) : State :=
  if (vget (s.die d).links i {}).st = 2 ∧ v.toNat % 4 = 0 then s.startRetrain d i else s

/-! ### The write of any register (R139) -/

/-- A write: the value of its RW bits, the ones that W1C fields see, and the value with which WO fields act. -/
structure RegWrite where
  v : Word
  ones : Word := 0
  act : Option Word := none

/-- R139: a write of register n by a writer. -/
def State.writeReg (s : State) (w : Writer) (n : Nat) (x : RegWrite) : RegResult :=
  let acts := fun (f : State → Word → State) => match x.act with
    | some a => .ok (f s a)
    | none => .ok s
  if n = 0x000 then s.writeSeqStat x.v
  else if 0x008 ≤ n ∧ n ≤ 0x00F then s.writeView (n - 0x008) x.v
  else if n = 0x010 then s.writeLsDepth x.v
  else if n = 0x040 then s.writePart x.v
  else if n = 0x240 then acts fun s a => s.pumpWrite w a
  else if n = 0x241 then acts fun s a => s.upldWrite w a
  else if n = 0x281 then s.writeNfCbase x.v
  else if n = 0x303 then acts fun s a => s.writeXltInv w.die a
  else if 0x360 ≤ n ∧ n ≤ 0x37F then s.writeSg (n - 0x360) x.v
  else if n = 0x381 then .ok (s.writeFltBase w.die x.v)
  else if 0x388 ≤ n ∧ n ≤ 0x38D then .ok (s.writeLink w.die (n - 0x388) x.v)
  else
    .ok (((s.upMe fun y => y.writeReg n x.v).upHere fun k => k.writeReg n x.v x.ones).modDie w.die fun y => y.writeReg n x.v x.ones)

/-! ### The words (R139) -/

/-- CSRRD (R139). -/
def execCsrrd (d : BitVec 6) (n : BitVec 10) (s : State) : Out :=
  match s.readReg s.cur.die s.cur.core s.cur.slot n.toNat with
  | some v => s.result d v 1
  | none => s.raise causeIllegal (zext64 (encode (.csrrd d n))) 0

/-- R384, R445: the slot of a write of GR.UPLD or XLT.INV is BLOCKED until every die has answered, or the entries are gone (log 28,
DEDUCED). -/
def State.awaitDie (s : State) : State :=
  let id := s.ids
  ((s.addPend { Pend.new .none with answered := true }).landLater s.cur.die s.cur.core s.cur.slot id .syncResultLands).block (.answer id)

/-- A word that writes a control register: `f` gives the write from the current value and the RW bits. -/
def State.csrWord (s : State) (i : Instr) (n : BitVec 10) (f : Word → Word → RegWrite) : Out :=
  match s.readReg s.cur.die s.cur.core s.cur.slot n.toNat with
  | none => s.raise causeIllegal (zext64 (encode i)) 0
  | some c =>
    if csrPrivileged n && !s.me.priv then s.noPrivilege (n.setWidth 64)
    else
      let w := f c (rwMask n.toNat)
      match s.writeReg { die := s.cur.die, core := s.cur.core, priv := s.me.priv, host := false } n.toNat w with
      | .ok s => .next (if (n = 0x241 || n = 0x303) && w.act.isSome then s.awaitDie else s.next4)
      | .error (cause, val, info) => s.raise cause val info

/-- CSRWR (R139). -/
def execCsrwr (a : BitVec 6) (n : BitVec 10) (s : State) : Out :=
  s.csrWord (.csrwr a n) n fun c m => { v := (c &&& ~~~m) ||| (s.rx a &&& m), ones := s.rx a, act := some (s.rx a) }

/-- CSRSET (R139). -/
def execCsrset (a : BitVec 6) (n : BitVec 10) (s : State) : Out :=
  s.csrWord (.csrset a n) n fun c m => { v := c ||| (s.rx a &&& m), ones := s.rx a, act := some (s.rx a) }

/-- CSRCLR (R139). -/
def execCsrclr (a : BitVec 6) (n : BitVec 10) (s : State) : Out :=
  s.csrWord (.csrclr a n) n fun c m => { v := c &&& ~~~(s.rx a &&& m) }

/-! ### The writes as steps of their own -/

/-- A write by the slot that the step concerns: its effect, or the trap that refuses it. -/
def State.writeStep (s : State) (r : RegResult) : Out :=
  match r with
  | .ok s => .next s
  | .error (cause, val, info) => s.raise cause val info

/-- CORE_PART_WRITE (R19). -/
def execCorePartWrite (s : State) : Out := s.writeStep (s.writePart s.cur.val)

/-- VIEW_REGISTER_WRITE (R22): of view register id. -/
def execViewRegisterWrite (s : State) : Out := s.writeStep (s.writeView (s.cur.id % 8) s.cur.val)

/-- SEQ_STAT_WRITE (R109). -/
def execSeqStatWrite (s : State) : Out := s.writeStep (s.writeSeqStat s.cur.val)

/-- LS_DEPTH_WRITE (R111). -/
def execLsDepthWrite (s : State) : Out := s.writeStep (s.writeLsDepth s.cur.val)

/-- SCOPE_SG_WRITE (R287): of entry id. -/
def execScopeSgWrite (s : State) : Out := s.writeStep (s.writeSg (s.cur.id % 32) s.cur.val)

/-- NF_CBASE_WRITE (R429). -/
def execNfCbaseWrite (s : State) : Out := s.writeStep (s.writeNfCbase s.cur.val)

/-- FLT_BASE_WRITE (R489). -/
def execFltBaseWrite (s : State) : Out := .next (s.writeFltBase s.cur.die s.cur.val)

/-- LINK_RETRAIN_REQUEST (R487): 0 written to LINK.STAT.ST of link id. -/
def execLinkRetrainRequest (s : State) : Out := .next (s.writeLink s.cur.die s.cur.id 0)

/-- R458: the registers that BAR0 maps. -/
def hostReg (x : Die) (n : Nat) : Bool := 0x200 ≤ n && n ≤ 0x3FF && n != 0x246 && ((x.readReg n).isSome || n == 0x383)

/-- REGISTER_WRITE (R139, R458): val written to register id, by the slot that the step concerns, or with n = 1 by the host,
which reaches die-scope registers only, with privilege. -/
def execRegisterWrite (s : State) : Out :=
  let n := s.cur.id
  let c := (s.readReg s.cur.die s.cur.core s.cur.slot n).getD 0
  let m := rwMask n
  if s.cur.n = 1 && !hostReg s.myDie n then .next s
  else s.writeStep (s.writeReg s.writer n { v := (c &&& ~~~m) ||| (s.cur.val &&& m), ones := s.cur.val, act := some s.cur.val })

end Sys2Proof.Machine
end

