-- ==== Sys2Proof/Machine/Issue.lean ====
section
/-! DEFINITION. The issue of one word: fetch, decode, what holds it back, and what follows its effect (R15, R17, R36,
R70, R288). The effect itself is a parameter, which Step instantiates with exec. -/

namespace Sys2Proof.Machine
open Sys2Proof

/-! ### Fetch (R438, R442, R70) -/

/-- Where a slot's next word is fetched from: the cistern of its core, or a page that grants X; or the fetch fault with
its TRAP.INFO. -/
def State.fetchLoc (s : State) : Ans Loc :=
  let pc := s.me.pc
  match region pc with
  | .own o => .ok (.cistern s.cur.die s.cur.core o)
  | .global =>
    match s.global s.access pc.toNat { x := true } with
    | .trap c _ _ => .trap causeFetch pc (if c = causeXlat then 1 else 2)
    | r => r
  | _ => .trap causeFetch pc 2

/-- The word at the program counter, or the fetch fault. -/
def State.fetch (s : State) : Ans InstrWord :=
  s.fetchLoc.bind fun l =>
    if s.bad l 4 then .trap causeFetch s.me.pc 3 else .ok (BitVec.ofNat 32 (s.peek l 4))

/-! ### What holds a word back -/

/-- R288: the words that make a memory access, which wait for an acquire of their slot. -/
def accessesOf (i : Instr) : Bool :=
  match i with
  | .ldb .. | .ldh .. | .ldw .. | .ldd .. | .ldbs .. | .ldhs .. | .ldws .. | .stb .. | .sth .. | .stw .. | .std ..
  | .amadd .. | .amfadd .. | .ammin .. | .ammax .. | .amminn .. | .ammaxn .. | .amand .. | .amor .. | .amxor ..
  | .amxch .. | .amcas .. | .amincb .. | .lda .. | .strl .. | .waita .. | .ftset .. | .ftsetw .. | .ftget .. | .fttry ..
  | .phnew .. | .phreg .. | .phdrop .. | .pharv .. | .phwait .. | .pharw .. | .phbyt .. | .brbase .. | .bradv .. | .brcmp ..
  | .rcsnap .. | .rcinc .. | .amred .. | .fencef .. | .winset .. | .winrt .. | .topord .. | .rtchk .. | .spawn ..
  | .ctxsw .. | .tkpush .. | .tkpop .. | .tkdone .. | .rngget .. | .schnxt .. | .lfwd .. | .ldgr .. | .lwgr .. | .lupd ..
  | .mcld .. | .vx .. | .mx .. | .cx .. | .sx .. | .ecmd .. | .tplld .. | .tplrd .. | .efence .. | .ebusy .. => true
  | _ => false

/-- R70: the words that raise the privilege trap in user mode, which they do without any wait. -/
def privilegedOf (i : Instr) : Bool :=
  match i with
  | .eret => true
  | .tlbinv _ _ => true
  | .ctxsw _ _ => true
  | .csrwr _ n => csrPrivileged n
  | .csrset _ n => csrPrivileged n
  | .csrclr _ n => csrPrivileged n
  | _ => false

/-- The hazard of a word on the slot that the step concerns (log 35, DEDUCED). -/
def State.hazard (s : State) (i : Instr) : Hazard :=
  let x := s.me
  match x.regHazard (readsOf i) (writesOf i) s.clk with
  | .clear => if accessesOf i && x.pend.any (·.acquire) then .blocked else .clear
  | .held => if accessesOf i && x.pend.any (·.acquire) then .blocked else .held
  | h => h

/-! ### The issue itself -/

/-- After the attempt: a word that is held, or that waits for its conditions, has not issued; any other has (R36, R444), and the
attempts of its versioned read are over (R300). A record armed before the word starts with it. The triggers of a vector word still use its translations. -/
def State.issued (s : State) (armed : Bool) : State :=
  match s.me.wait, s.me.st with
  | .word, .active => s.upMe fun x => { x with wait := .none }
  | .word, _ => s
  | .walk, _ => s
  | .answer _, _ => if armed then s.launchRecord else s
  | _, _ =>
    let s := (if armed then s.launchRecord else s).upMe fun x => { x with attempts := 0 }
    if s.now.any fun e => e.who.trig.isSome then s else s.upMe fun x => { x with xl := [] }

/-- The attempt to issue the next word of the ACTIVE slot that the step concerns. A word whose issue would start a landing
record beside so many landings of the handler that more than 8 were outstanding is held for these first (R29, R36) (log 83,
DEDUCED). -/
def State.issueWord (s : State) (run : Instr → State → Out) : Out :=
  if s.me.armed && 8 < s.me.outstanding then .next s
  else
  s.fetch.run s fun w =>
    match decodeWord w with
    | .error _ => s.raise causeIllegal (zext64 w) 0
    | .ok i =>
      if (privilegedOf i && !s.me.priv) || s.templateFaulted i then run i s
      else
        match s.hazard i with
        | .clear =>
          match run i s with
          | .next s' => .next ((s'.as s.cur).issued s.me.armed)
          | o => o
        | .blocked => s.hold
        | .late t => .next (s.lateTrap t)
        | .held => .next s

/-- The core may issue a word in this clk: its ACTIVE slot, unless a change of slot is under way (R16). -/
def Core.issues (k : Core) (clk : Nat) : Option Nat :=
  match k.switching with
  | some (_, t) => if clk < t then none else k.active
  | none => k.active

/-- One core's part in the issue of a clk. -/
def State.issueCore (s : State) (run : Instr → State → Out) (d c : Nat) : Out :=
  match (s.core d c).issues s.clk with
  | some i => (s.as { die := d, core := c, slot := i }).issueWord run
  | none => .next s

end Sys2Proof.Machine
end

