-- ==== Sys2Proof/Machine/Repair.lean ====
section
/-! DEFINITION. Errors, link recovery, bring-up, firmware, heat and power (R457, R480–R498). What the outside world decides
comes in the subject of the step: which unit, and how it ends. -/

namespace Sys2Proof.Machine
open Sys2Proof

/-! ### Memory errors (R480–R484) -/

/-- The storage that an error concerns (log 73, DESIGN CHOICE). -/
inductive Storage where
  /-- a byte of a die's HBM -/
  | hbm (o : Nat)
  | cistern (core o : Nat)
  | sync (o : Nat)
  /-- entry engine·64 + index of the template stores -/
  | template (core i : Nat)
  | microcode (core i : Nat)
  /-- 64-bit word i of the transposing buffer -/
  | panel (core i : Nat)
  /-- the register state of a slot -/
  | slot (core i : Nat)
  /-- sum i of the norm tracker (R304) -/
  | sum (core i : Nat)
  /-- the record of a handle in the wellhead -/
  | well (h : Nat)
  /-- entry i of a core's TLB, and of the hub -/
  | tlb (core i : Nat)
  | hub (i : Nat)
  deriving DecidableEq, Repr

/-- The storage that the step names: n is its kind, id its address (log 73, DESIGN CHOICE). -/
def State.storage (s : State) : Storage :=
  match s.cur.n % 11 with
  | 0 => .hbm s.cur.id
  | 1 => .cistern s.cur.core s.cur.id
  | 2 => .sync s.cur.id
  | 3 => .template s.cur.core s.cur.id
  | 4 => .microcode s.cur.core s.cur.id
  | 5 => .panel s.cur.core s.cur.id
  | 6 => .slot s.cur.core s.cur.slot
  | 7 => .sum s.cur.core s.cur.id
  | 8 => .well s.cur.id
  | 9 => .tlb s.cur.core s.cur.id
  | _ => .hub s.cur.id

/-- The UNIT of a storage (R488). -/
def Storage.unit (x : Storage) : Nat :=
  match x with
  | .hbm o => 0x2000 + hbmStack o
  | .sync _ => 0x4000
  | .cistern c _ => unitOfCore c
  | .template c _ => unitOfCore c
  | .microcode c _ => unitOfCore c
  | .panel c _ => unitOfCore c
  | .slot c _ => unitOfCore c
  | .sum c _ => unitOfCore c
  | .tlb c _ => unitOfCore c
  | .well _ => 0x5000
  | .hub _ => 0x6000

/-- The range of a storage in a record (R488): its unit, where it has an address (log 95, DEDUCED). -/
def Storage.range (x : Storage) (d : Nat) : Option (Nat × Nat) :=
  match x with
  | .hbm o => (Loc.hbm d (o / unitHbm * unitHbm)).span unitHbm
  | .cistern c o => (Loc.cistern d c (o / unitSram * unitSram)).span unitSram
  | .sync o => (Loc.sync d (o / unitSram * unitSram)).span unitSram
  | _ => none

/-- R481, R409: a corrected error: counted, reported, and a guard stop of every replay of the die. -/
def State.corrected (s : State) (d : Nat) (x : Storage) : State :=
  let s := (s.modDie d fun y => { y with correctable := y.correctable + 1 }).record d
    { unit := x.unit, kind := 0x01, action := 1, range := x.range d, d0 := wordN (Config.choice s.fresh) }
  let s := s.stamp
  ((s.die d).graphs.entries.filter fun e => (e.2.run.map fun r => r.mode == .replay).getD false).foldl (fun s e => s.guardStop d e.1) s

/-- CORRECTABLE_ERROR (R481). -/
def execCorrectableError (s : State) : Out := .next (s.corrected s.cur.die s.storage)

/-- R409, R482: the unit of a storage becomes poisoned; an error in the registers of a slot ends its thread as a double trap. A
translation that cannot be read is held no longer, and the spec gives a poisoned word of the wellhead no consumer (log 73, DESIGN CHOICE). -/
def State.poisonUnit (s : State) (d : Nat) (x : Storage) : State :=
  match x with
  | .hbm o => s.modMem (.hbm d o) fun m u a => m.spoil u a 1
  | .cistern c o => s.modMem (.cistern d c o) fun m u a => m.spoil u a 1
  | .sync o => s.modMem (.sync d o) fun m u a => m.spoil u a 1
  | .template c i => s.modCore d c fun k =>
      { k with tmpl := k.tmpl.set i { (k.tmpl.get {} i) with poisoned := some (wordN (i * 16)) } }
  | .microcode c i => s.modCore d c fun k => { k with macro_ := { k.macro_ with poisoned := insertNat k.macro_.poisoned i } }
  | .panel c i => s.modCore d c fun k => { k with panelsBad := insertNat k.panelsBad i }
  | .sum c i => s.modCore d c fun k => { k with smp := { k.smp with sumsBad := insertNat k.smp.sumsBad (i % 16384) } }
  | .tlb c i => s.modCore d c fun k => { k with tlb := k.tlb.eraseIdx i }
  | .hub i => s.modDie d fun x => { x with hub := x.hub.eraseIdx i }
  | .well _ => s
  | .slot c i =>
    let y := s.slot d c i
    if y.st == .free then s
    else
      ((s.taskFault d c i).modSlot d c i fun y => { y with st := .blocked, wait := .dead }).record d
        { unit := unitOfCore c, kind := 0x22, action := 3, asid := (s.core d c).ctx.asid.toNat
          d0 := wordN (i + y.trapCause.toNat * 2 ^ 8 + causePoison * 2 ^ 16), d1 := y.trapPc }

/-- UNCORRECTABLE_ERROR (R482) (log 73, DESIGN CHOICE). -/
def execUncorrectableError (s : State) : Out := .next (s.poisonUnit s.cur.die s.storage)

/-- PATROL_SCRUB (R484): val 0 finds nothing, 1 a correctable error, another value an uncorrectable one. -/
def execPatrolScrub (s : State) : Out :=
  let d := s.cur.die
  let x := s.storage
  match s.cur.val.toNat with
  | 0 => .next s
  | 1 => .next (s.corrected d x)
  | _ => .next ((s.poisonUnit d x).record d { unit := x.unit, kind := 0x02, action := 2, range := x.range d })

/-! ### Links (R485–R487, R491) -/

/-- A link of a die. -/
def State.link (s : State) (d i : Nat) : Link := vget (s.die d).links i {}

/-- A link of a die changed. -/
def State.modLink (s : State) (d i : Nat) (f : Link → Link) : State :=
  s.modDie d fun x => { x with links := x.links.setIfInBounds i (f (vget x.links i {})) }

/-- The flit of a packet changed. -/
def State.modFlit (s : State) (d i id : Nat) (f : Flit → Flit) : State :=
  s.modLink d i fun l => { l with flits := l.flits.map fun x => if x.pkt.id = id then f x else x }

/-- The flit that the step concerns: of packet id on link n. -/
def State.flit (s : State) : Option Flit := (s.link s.cur.die s.cur.n).flits.find? fun f => f.pkt.id == s.cur.id

/-- The step of a flit after its way over the link. -/
def State.flitLater (s : State) (op : Instr) : State := (s.later (1 + Config.latency s.fresh) { who := s.cur, op := op }).stamp

/-- One more recovered flit, saturating. -/
def satInc16 (v : BitVec 16) : BitVec 16 := if v = BitVec.allOnes 16 then v else v + 1

/-- FLIT_CRC_FAIL (R485): the receiver keeps the flit and sends a NACK; after the fourth failed resend the link retrains. -/
def execFlitCrcFail (s : State) : Out :=
  let d := s.cur.die
  let i := s.cur.n
  match s.flit with
  | none => .next s
  | some f =>
    if !f.damaged then .next ((s.modFlit d i f.pkt.id fun f => { f with damaged := true }).flitLater .flitNackReceived)
    else
      let n := f.resend + 1
      let s := s.modFlit d i f.pkt.id fun f => { f with resend := n }
      .next (if 4 ≤ n then s.startRetrain d i else s.flitLater .flitNackReceived)

/-- FLIT_NACK_RECEIVED (R485): two increments of parity, then the flit itself, which arrives whole or fails again
(log 19, DESIGN CHOICE). -/
def execFlitNackReceived (s : State) : Out :=
  let d := s.cur.die
  let i := s.cur.n
  match s.flit with
  | none => .next s
  | some f =>
    if !f.damaged then .next s
    else if f.incr < 2 then .next (s.flitLater .flitParityReceived)
    else if Config.parityRecovers s.fresh then
      let s := s.stamp.modLink d i fun l => { l with res := satInc16 l.res }
      .next ((s.modFlit d i f.pkt.id fun f => { f with damaged := false }).flitLater .flitAck)
    else .next (s.stamp.flitLater .flitCrcFail)

/-- FLIT_PARITY_RECEIVED (R485): the CRC of the stored flit with the parity received so far (log 19, DESIGN CHOICE). -/
def execFlitParityReceived (s : State) : Out :=
  let d := s.cur.die
  let i := s.cur.n
  match s.flit with
  | none => .next s
  | some f =>
    if !f.damaged then .next s
    else if Config.parityRecovers s.fresh then
      let s := s.stamp.modLink d i fun l => { l with par := satInc16 l.par }
      .next ((s.modFlit d i f.pkt.id fun f => { f with damaged := false }).soon { who := s.cur, op := .flitAck })
    else .next ((s.stamp.modFlit d i f.pkt.id fun f => { f with incr := f.incr + 1 }).flitLater .flitNackReceived)

/-- LGEN of a link of a die in the topology map (R332). -/
def State.lgen (s : State) (d i : Nat) : Nat :=
  s.mapWord d 768 (8 + s.mapWord d 768 1 / 2 ^ 16 % 2 ^ 16 + 6 * d + i) / 2 ^ 32

/-- R486: a link goes down: its state and RDY bit, the bounces of its unacknowledged requests, and the report (log 74,
DEDUCED). -/
def State.linkFails (s : State) (d i : Nat) : State :=
  let fs := (s.link d i).flits
  let s := (s.modLink d i fun l => { l with st := 2, flits := [] }).modDie d fun x => { x with rdy := x.rdy &&& ~~~((1 : BitVec 22) <<< (12 + i)) }
  let s := fs.foldl (fun s f =>
    if f.pkt.back then s.dropPacket f.pkt.id
    else
      let q := f.pkt.bounce (reasonWord 6 f.pkt.seg f.pkt.hop)
      (s.setPacket q).soon (packetEv q .packetForward)) s
  s.record d { unit := 0x3000 + i, kind := 0x11, action := 8, d0 := wordN i, d1 := wordN (s.lgen d i) }

/-- LINK_RETRAIN_TIMEOUT (R485, R486). -/
def execLinkRetrainTimeout (s : State) : Out :=
  let d := s.cur.die
  let i := s.cur.n
  let l := s.link d i
  if l.retrain ≠ some s.cur.id then .next s
  else
    let s := s.modLink d i fun l => { l with retrain := none }
    .next (if l.st.toNat < 2 then s.linkFails d i else s)

/-- LINK_RETRAIN_SUCCESS (R485, R491): the link is up, or degraded with val 1, and its RDY bit set; every unacknowledged flit
is sent again. The first training of a link at bring-up (R494) ends so too. -/
def execLinkRetrainSuccess (s : State) : Out :=
  let d := s.cur.die
  let i := s.cur.n
  let l := s.link d i
  if 6 ≤ i || (l.retrain.isNone && l.st ≠ 3) then .next s
  else
    let again := l.flits.filter (·.damaged)
    let fs := l.flits.map fun f => { f with damaged := false, incr := 0, resend := 0 }
    let rtn := if l.retrain.isSome && l.rtn ≠ 15 then l.rtn + 1 else l.rtn
    let s := (s.modLink d i fun l => { l with st := if s.cur.val = 1 then 1 else 0, retrain := none, rtn := rtn, flits := fs }).modDie d
      fun x => { x with rdy := x.rdy ||| (1 <<< (12 + i)) }
    let s := if l.retrain.isSome then
        s.record d { unit := 0x3000 + i, kind := 0x10, action := 7, d0 := wordN i, d1 := wordN rtn.toNat }
      else s
    .next (again.foldl (fun s f =>
      (s.later (1 + Config.latency s.fresh) { who := { s.cur with id := f.pkt.id }, op := .flitAck }).stamp) s)

/-! ### Heat and power (R497, R498) -/

/-- A step that comes when a time stated in µs has passed (R437, R250, R485, R498). -/
def timed (i : Instr) : Bool := i == .hardStop || i == .copySaveTimeout || i == .linkRetrainTimeout || i == .thermalHalt

/-- R497: the operating point of a die changes: its rail in mV and its clock in MHz. TIME.NS goes on from its value, and the times in µs
that run on the die end where its reference timer has them end. -/
def State.setPoint (s : State) (d mv mhz : Nat) : State :=
  let old := (s.die d).pwrMhz.toNat
  let time := fun (e : Nat × Ev) =>
    if e.2.who.die == d && timed e.2.op then (s.clk + (e.1 - s.clk) * mhz / old, e.2) else e
  { (s.modDie d fun x => { x with
      refNs := s.timeNs d, refClk := s.clk, pwrMv := BitVec.ofNat 12 mv, pwrMhz := BitVec.ofNat 12 mhz }) with
    agenda := s.agenda.map time }

/-- R498: the power manager lowers the operating point by an open amount, within the rail's range (R497; log 13, DESIGN
CHOICE) (log 72, DESIGN CHOICE). -/
def State.lowerPoint (s : State) (d : Nat) : State :=
  let mv := (s.die d).pwrMv.toNat
  let mhz := (s.die d).pwrMhz.toNat
  let pick := Config.choice s.fresh
  s.stamp.setPoint d (350 + pick % (mv - 350 + 1)) (mhz - pick % mhz)

/-- SENSOR_THRESHOLD (R498): a core reports its temperature code, in n, and its droop code, in id. -/
def execSensorThreshold (s : State) : Out :=
  let d := s.cur.die
  let c := s.cur.core
  let temp := s.cur.n % 16
  let droop := s.cur.id % 16
  let s := s.modCore d c fun k => { k with temp := temp, droop := droop }
  let s := if 12 ≤ temp then
      (s.lowerPoint d).record d { unit := 0x8000, kind := 0x30, action := 10, d0 := wordN temp, d1 := wordN c }
    else s
  let s := if 12 ≤ droop then
      ((s.lowerPoint d).stamp).record d
        { unit := 0x8000, kind := 0x31, action := 10, d0 := (s.die d).pwrDie.setWidth 64, d1 := wordN (Config.choice s.fresh) }
    else s
  let hot := (s.die d).cores.entries.any fun e => e.2.temp == 15
  match (s.die d).hotSince, hot with
  | none, true => .next ((s.modDie d fun x => { x with hotSince := some s.clk }).later (s.clkOf d 1000) { who := { die := d, core := c, id := s.clk }, op := .thermalHalt })
  | some _, false => .next (s.modDie d fun x => { x with hotSince := none })
  | _, _ => .next s

/-- THERMAL_HALT (R498): code 15 has been held for 1 ms. -/
def execThermalHalt (s : State) : Out :=
  let d := s.cur.die
  if s.myDie.hotSince = some s.cur.id ∧ s.myDie.halted = false then
    .next ((s.modDie d fun x => { x with halted := true, rdy := x.rdy &&& ~~~0xF00 }).record d
      { unit := 0x8000, kind := 0x30, action := 11, d0 := 15, d1 := wordN s.cur.core })
  else .next s
/-- OPERATING_POINT_CHANGE (R497): the clock in MHz, n, and the rail in mV, id, from 350 to 550; val holds the power of the
die and of the package in W. -/
def execOperatingPointChange (s : State) : Out :=
  if 350 ≤ s.cur.id && s.cur.id ≤ 550 && 0 < s.cur.n && s.cur.n < 4096 then
    .next ((s.setPoint s.cur.die s.cur.id s.cur.n).upDie fun x =>
      { x with pwrDie := s.cur.val.setWidth 16, pwrPkg := s.cur.val.extractLsb' 16 16 })
  else .next s

/-- POWER_REMOVED (R497): the device keeps no state; host memory is the host's (log 82, DEDUCED). -/
def execPowerRemoved (s : State) : Out :=
  .next { State.reset with
    powered := false, hostMem := s.hostMem, dims := s.dims
    dies := { entries := s.dies.entries.map fun e => (e.1, Die.reset) } }

/-! ### Bring-up, firmware and attestation (R457, R493–R496) -/

/-- Bytes of an ML-DSA-44 public key and signature. -/
def mldsaKeyBytes : Nat := 1312
def mldsaSigBytes : Nat := 2420

/-- n bytes from a number, the least significant first. -/
def bytesN (v n : Nat) : List Byte := (List.range n).map fun i => BitVec.ofNat 8 (v / 2 ^ (8 * i))

/-- R495: what the ROM makes of an image: CODE, version and digest. An image is its key, its signature, its version and its
contents (log 12, PRESUMED). -/
def verifyImage (d : Nat) (img : Option (List Byte)) : Nat × Nat × BitVec 256 :=
  match img with
  | none => (4, 0, 0)
  | some bs =>
    let key := bs.take mldsaKeyBytes
    let sig := (bs.drop mldsaKeyBytes).take mldsaSigBytes
    let rest := bs.drop (mldsaKeyBytes + mldsaSigBytes)
    let version := (rest.take 4).foldr (fun b v => b.toNat + 256 * v) 0
    let digest := sha3 rest
    if sha3 key ≠ Config.vendorKeyDigest || !Config.mldsaVerify key digest sig then (2, 0, 0)
    else if version < (Config.rollback d).toNat then (3, 0, 0)
    else (0, version, digest)

/-- R493: a function sets its bit of RDY when it is ready, and clears it when it fails. -/
def Die.setReady (x : Die) (i : Nat) (ok : Bool) : Die :=
  { x with rdy := if ok then x.rdy ||| (1 : BitVec 22) <<< i else x.rdy &&& ~~~((1 : BitVec 22) <<< i) }

/-- BOOT_VERIFY (R495): the image of n bytes at host physical address id, where the platform puts it (log 12, PRESUMED). -/
def execBootVerify (s : State) : Out :=
  let d := s.cur.die
  let l := Loc.host s.cur.id
  let img := if s.cur.n < mldsaKeyBytes + mldsaSigBytes + 4 || s.bad l s.cur.n then none else some (s.hostMem.readBytes s.cur.id s.cur.n)
  let r := verifyImage d img
  .next (s.modDie d fun x =>
    let x := x.setReady 21 (r.1 == 0)
    if r.1 = 0 then { x with bootCode := 0, fwVer := BitVec.ofNat 32 r.2.1, fwDigest := r.2.2 }
    else { x with bootCode := BitVec.ofNat 8 r.1 })

/-- CLUSTER_SELF_TEST (R494): cluster id passes, or fails with n = 1 (log 71, DEDUCED). -/
def execClusterSelfTest (s : State) : Out :=
  .next (if s.cur.id < 4 then s.upDie fun x => x.setReady (8 + s.cur.id) (s.cur.n != 1) else s)

/-- HBM_STACK_TRAINING (R494): stack id is ready, or its training has failed with n = 1 (log 71, DEDUCED). -/
def execHbmStackTraining (s : State) : Out :=
  .next (if s.cur.id < 6 then s.upDie fun x => x.setReady s.cur.id (s.cur.n != 1) else s)

/-- HOST_LINK_TRAINING (R457): CXL when the host supports it (n = 1), otherwise PCIe. -/
def execHostLinkTraining (s : State) : Out := .next { s with hostLink := if s.cur.n = 1 then .cxl else .pcie }

/-- ATTESTATION_REPORT (R496): the answer to the host nonce in id: its contents and their signature (log 12, PRESUMED). -/
def execAttestationReport (s : State) : Out :=
  let d := s.cur.die
  let x := s.myDie
  let index := s.mapWord d 768 (8 + d) / 2 ^ 48
  let body := bytesN index 2 ++ bytesN x.fwDigest.toNat 32 ++ bytesN x.fwVer.toNat 4 ++ bytesN (Config.rollback d).toNat 4 ++
    bytesN s.cur.id 32
  .next (s.upDie fun y => { y with report := body ++ Config.mldsaSign (BitVec.ofNat 256 (Config.identitySeed d).toNat) (sha3 body) })

end Sys2Proof.Machine
end

