-- ==== Sys2Proof/Machine/Agents.lean ====
section
/-! DEFINITION. What the agents of the machine start in one clk: the steps that become enabled by themselves. -/

namespace Sys2Proof.Machine
open Sys2Proof

/-- A step of a core, on an object number. -/
def coreEv (d c id : Nat) (op : Instr) : Ev := { who := { die := d, core := c, id := id }, op := op }

/-! ### Before the issue: one core -/

/-- The steps that a slot takes without a word: the end of IDLE, PARK and EXIT (R140–R142). -/
def State.slotSteps (s : State) (d c i : Nat) : List Ev :=
  let x := s.slot d c i
  let ev := fun (op : Instr) => ({ who := { die := d, core := c, slot := i }, op := op } : Ev)
  match x.wait with
  | .idle t => if t ≤ s.clk && !x.stopped then [ev .idleExpire] else []
  | .park o => if s.futureFull (.sync d o) && !x.stopped then [ev .parkedSlotWake] else []
  | .exit => if x.lands.isEmpty && x.pend.isEmpty then [ev .exitFinish] else []
  | _ => []

/-- A save or an end that tries its next part (R450). -/
def Core.saveSteps (k : Core) (d c : Nat) : List Ev :=
  match k.switch with
  | some w => if w.step == .stopping || w.step == .closed then [coreEv d c 0 .saveClose] else []
  | none => []

/-- The copies of a core that move lines before the issue, those with both ends in the own cistern, or complete (R238–R243). -/
def Core.copySteps (k : Core) (d c clk : Nat) : List Ev :=
  k.cpy.flight.flatMap fun r =>
    let x := r.cmd
    (if r.stage == 1 && r.ownEnds c then [copyEv d c x.id 1 (copyInstr x)] else []) ++
    (if r.goesOn c clk then [copyEv d c x.id 0 .copyComplete] else []) ++
    (if r.stage == 3 && templateOp x.t == 3 then [copyEv d c x.id 0 .cpyfFollowOnEnqueue] else [])

/-- What goes on or ends by itself on a core in a clk. -/
def State.coreSteps (s : State) (d c : Nat) : List Ev :=
  let k := s.core d c
  k.saveSteps d c ++ ([0, 1, 2, 3].flatMap fun i => s.slotSteps d c i) ++ k.copySteps d c s.clk

/-! ### Before the issue: one die -/

/-- R411: trace versions that wait for the end of a stroke. -/
def Die.freshSteps (x : Die) (d key : Nat) : List Ev :=
  (x.traces.filter fun q => q.asid == key / 256 && q.gid == key % 256 && !q.fresh.isEmpty).map fun q =>
    { who := { die := d, id := key, val := q.key }, op := .traceVersionInstall }

/-- What ends or changes in a graph of a die: a hand-off, the end of its stroke, a new trace version (R388, R408, R411). -/
def State.graphSteps (s : State) (d key : Nat) : List Ev :=
  let ev := fun (op : Instr) => ({ who := { die := d, id := key }, op := op } : Ev)
  match s.stroke d key with
  | some _ =>
    (if s.allStopped d key then [ev .handOff] else []) ++
    (if s.strokeEndedOn d key && s.strokeEnded key then [ev .strokeEnd] else [])
  | none => (s.die d).freshSteps d key

/-- R16: a core without an ACTIVE slot looks for a READY one. -/
def Core.switchSteps (k : Core) (d c : Nat) : List Ev :=
  if k.active.isNone && k.slots.toList.any fun x => x.st != .free then [coreEv d c 0 .slotSwitch] else []

/-- What goes on by itself on a die: its cores in order, the wellhead, the graphs. -/
def State.dieSteps (s : State) (d : Nat) (x : Die) : List Ev :=
  if x.halted then []
  else
    (x.cores.entries.flatMap fun k => s.coreSteps d k.1) ++
    (if s.wellGoes d then [{ who := { die := d }, op := .wellheadDispatch }] else []) ++
    (x.graphs.entries.flatMap fun g => s.graphSteps d g.1)

/-- The changes of slot of a die. -/
def Die.switchSteps (x : Die) (d : Nat) : List Ev :=
  if x.halted then [] else x.cores.entries.flatMap fun k => k.2.switchSteps d k.1

/-- The steps of the start phase, in the order in which they are taken; the changes of slot come last (log 10, DEDUCED). -/
def State.scan (s : State) : List Ev :=
  (s.dies.entries.flatMap fun e => s.dieSteps e.1 e.2) ++ s.dies.entries.flatMap fun e => e.2.switchSteps e.1

/-! ### The other phases -/

/-- The first step of a list that falls due by a clk, and the others. -/
def dueIn (clk : Nat) : List (Nat × Ev) → Option (Ev × List (Nat × Ev))
  | [] => none
  | (t, e) :: rest =>
    if t ≤ clk then some (e, rest)
    else (dueIn clk rest).map fun r => (r.1, (t, e) :: r.2)

/-- The next step of the agenda that is due. -/
def State.nextDue (s : State) : Option (Ev × List (Nat × Ev)) := dueIn s.clk s.agenda

/-- The cores that issue in this clk. -/
def State.issuers (s : State) : List (Nat × Nat) :=
  s.dies.entries.flatMap fun e =>
    if e.2.halted then [] else (e.2.cores.entries.filter fun k => (k.2.issues s.clk).isSome).map fun k => (e.1, k.1)

/-- The copies of a core that start, the head of its copy queue, and the copies with other ends, which move lines where the
cistern port has been left to them (R232, R239). -/
def Core.copyStartSteps (k : Core) (d c clk : Nat) : List Ev :=
  ((k.cpy.flight.filter fun r => k.copyStarts r clk).map fun r => copyEv d c r.cmd.id 0 (copyInstr r.cmd)) ++
  (if (k.copyHead clk).isSome then [coreEv d c 0 .copyDequeue] else []) ++
  ((k.cpy.flight.filter fun r => r.stage == 1 && !r.ownEnds c).map fun r => copyEv d c r.cmd.id 1 (copyInstr r.cmd))

/-- The matrix and sampling commands of a core that start (R196, R302). -/
def Core.engineSteps (k : Core) (d c clk : Nat) : List Ev :=
  ((k.matStarts clk).map fun e => coreEv d c e.1.id e.2).toList ++ ((k.smpStarts clk).map fun e => coreEv d c e.1.id e.2).toList

/-- What a core does after the issue of a clk: its player (R397), its macro unit, whose commands enter after those of
the slots (R417), and the starts of commands. -/
def State.lateSteps (s : State) (d c : Nat) (k : Core) : List Ev :=
  (((s.playerStep d c).toList ++ (s.macroStep d c).toList).map fun op => coreEv d c 0 op) ++
  k.copyStartSteps d c s.clk ++ k.engineSteps d c s.clk

/-- The steps of the late phase, in the order in which they are taken (log 10, DEDUCED). -/
def State.lateScan (s : State) : List Ev :=
  s.dies.entries.flatMap fun e =>
    if e.2.halted then [] else e.2.cores.entries.flatMap fun k => s.lateSteps e.1 k.1 k.2

/-- R15: the word of a BLOCKED slot could issue: an attempt does not leave the slot as it is. -/
def State.couldIssue (s : State) (run : Instr → State → Out) (d c i : Nat) : Bool :=
  match ((s.as { die := d, core := c, slot := i }).upMe fun x => { x with st := .active }).issueWord run with
  | .next t => !((t.slot d c i).st == .blocked && (t.slot d c i).wait == .word)
  | _ => true

/-- The slots that become READY with the next clk because their condition has cleared (R15). -/
def State.wakes (s : State) (run : Instr → State → Out) : List Ev :=
  s.dies.entries.flatMap fun e =>
    if e.2.halted then []
    else
      e.2.cores.entries.flatMap fun k => [0, 1, 2, 3].flatMap fun i =>
        let x := k.2.slot i
        if x.st == .blocked && x.wait == .word && !x.stopped && s.couldIssue run e.1 k.1 i then
          [{ who := { die := e.1, core := k.1, slot := i }, op := .blockedSlotWake }]
        else []

/-- A table with every value changed. -/
def Tab.mapAll {α : Type} (t : Tab α) (f : α → α) : Tab α := { entries := t.entries.map fun e => (e.1, f e.2) }

/-- The end of a clk: read ranges that end with it (R229), the sums of the norm tracker (R310), the tokens that the command cores set (log 29, DEDUCED), the
next clk,
and the slots that wake in it. -/
def State.tick (s : State) (run : Instr → State → Out) : State :=
  let s := s.reactions
  let s := { s with dies := s.dies.mapAll fun x => { x with cores := x.cores.mapAll fun k => k.copyReads s.clk |>.settle } }
  let s := { s with clk := s.clk + 1, phase := .land }
  { s with now := s.wakes run }

end Sys2Proof.Machine
end

