-- ==== Sys2Proof/Machine/AluImm.lean ====
section
/-! DEFINITION. ALU immediate operations (class 0x1, R123, R124). -/

namespace Sys2Proof.Machine
open Sys2Proof

/-- An operation with the sign-extended immediate (R123, R73). -/
def State.aluImm (s : State) (f : Word → Word → Word) (d a : BitVec 6) (i : BitVec 10) (n : Nat) : Out :=
  s.result d (f (s.rx a) (sext64 i)) n

/-- ADDI (R123). -/
def execAddi (d a : BitVec 6) (i : BitVec 10) (s : State) : Out := s.aluImm (fun a i => a + i) d a i 1

/-- MULI (R123). -/
def execMuli (d a : BitVec 6) (i : BitVec 10) (s : State) : Out := s.aluImm (fun a i => a * i) d a i 3

/-- ANDI (R123). -/
def execAndi (d a : BitVec 6) (i : BitVec 10) (s : State) : Out := s.aluImm (fun a i => a &&& i) d a i 1

/-- ORI (R123). -/
def execOri (d a : BitVec 6) (i : BitVec 10) (s : State) : Out := s.aluImm (fun a i => a ||| i) d a i 1

/-- XORI (R123). -/
def execXori (d a : BitVec 6) (i : BitVec 10) (s : State) : Out := s.aluImm (fun a i => a ^^^ i) d a i 1

/-- CMPEQI (R123). -/
def execCmpeqi (d a : BitVec 6) (i : BitVec 10) (s : State) : Out := s.aluImm (fun a i => boolWord (condEq a i)) d a i 1

/-- CMPLTI (R123). -/
def execCmplti (d a : BitVec 6) (i : BitVec 10) (s : State) : Out := s.aluImm (fun a i => boolWord (condLt a i)) d a i 1

/-- CMPLTNI (R123). -/
def execCmpltni (d a : BitVec 6) (i : BitVec 10) (s : State) : Out := s.aluImm (fun a i => boolWord (condLtn a i)) d a i 1

/-- MINI (R123). -/
def execMini (d a : BitVec 6) (i : BitVec 10) (s : State) : Out := s.aluImm (fun a i => if condLt i a then i else a) d a i 1

/-- MAXI (R123). -/
def execMaxi (d a : BitVec 6) (i : BitVec 10) (s : State) : Out := s.aluImm (fun a i => if condLt a i then i else a) d a i 1

/-- SHLI (R123). -/
def execShli (d a : BitVec 6) (c : BitVec 6) (s : State) : Out := s.result d ((s.rx a) <<< c.toNat) 1

/-- SHRI (R123). -/
def execShri (d a : BitVec 6) (c : BitVec 6) (s : State) : Out := s.result d ((s.rx a) >>> c.toNat) 1

/-- SHRAI (R123). -/
def execShrai (d a : BitVec 6) (c : BitVec 6) (s : State) : Out := s.result d ((s.rx a).sshiftRight c.toNat) 1

/-- ROTLI (R123). -/
def execRotli (d a : BitVec 6) (c : BitVec 6) (s : State) : Out := s.result d ((s.rx a).rotateLeft c.toNat) 1

/-- A halfword at position h (R73). -/
def halfword (h : BitVec 2) (i : BitVec 16) : Word := zext64 i <<< (16 * h.toNat)

/-- MOVI (R73, R124). -/
def execMovi (h : BitVec 2) (d : BitVec 6) (i : BitVec 16) (s : State) : Out := s.result d (halfword h i) 1

/-- MOVK (R73, R124). -/
def execMovk (h : BitVec 2) (d : BitVec 6) (i : BitVec 16) (s : State) : Out :=
  s.result d ((s.rx d &&& ~~~(halfword h 0xFFFF)) ||| halfword h i) 1

/-- MOVN (R73, R124). -/
def execMovn (h : BitVec 2) (d : BitVec 6) (i : BitVec 16) (s : State) : Out := s.result d (~~~(halfword h i)) 1

end Sys2Proof.Machine
end

