-- ==== Sys2Proof/Machine/ScalarMem.lean ====
section
/-! DEFINITION. Scalar memory (class 0x2, R125–R129). -/

namespace Sys2Proof.Machine
open Sys2Proof

/-- LDB (R126). -/
def execLdb (o : BitVec 4) (d a : BitVec 6) (f : BitVec 8) (s : State) : Out := s.scalarLoad (s.ea a f 1) 1 false o.toNat d false

/-- LDH (R126). -/
def execLdh (o : BitVec 4) (d a : BitVec 6) (f : BitVec 8) (s : State) : Out := s.scalarLoad (s.ea a f 2) 2 false o.toNat d false

/-- LDW (R126). -/
def execLdw (o : BitVec 4) (d a : BitVec 6) (f : BitVec 8) (s : State) : Out := s.scalarLoad (s.ea a f 4) 4 false o.toNat d false

/-- LDD (R126). -/
def execLdd (o : BitVec 4) (d a : BitVec 6) (f : BitVec 8) (s : State) : Out := s.scalarLoad (s.ea a f 8) 8 false o.toNat d false

/-- LDBS (R126). -/
def execLdbs (o : BitVec 4) (d a : BitVec 6) (f : BitVec 8) (s : State) : Out := s.scalarLoad (s.ea a f 1) 1 true o.toNat d false

/-- LDHS (R126). -/
def execLdhs (o : BitVec 4) (d a : BitVec 6) (f : BitVec 8) (s : State) : Out := s.scalarLoad (s.ea a f 2) 2 true o.toNat d false

/-- LDWS (R126). -/
def execLdws (o : BitVec 4) (d a : BitVec 6) (f : BitVec 8) (s : State) : Out := s.scalarLoad (s.ea a f 4) 4 true o.toNat d false

/-- STB (R126). -/
def execStb (o : BitVec 4) (x a : BitVec 6) (f : BitVec 8) (s : State) : Out := s.scalarStore (s.ea a f 1) 1 (s.rx x) o.toNat

/-- STH (R126). -/
def execSth (o : BitVec 4) (x a : BitVec 6) (f : BitVec 8) (s : State) : Out := s.scalarStore (s.ea a f 2) 2 (s.rx x) o.toNat

/-- STW (R126). -/
def execStw (o : BitVec 4) (x a : BitVec 6) (f : BitVec 8) (s : State) : Out := s.scalarStore (s.ea a f 4) 4 (s.rx x) o.toNat

/-- STD (R126). -/
def execStd (o : BitVec 4) (x a : BitVec 6) (f : BitVec 8) (s : State) : Out := s.scalarStore (s.ea a f 8) 8 (s.rx x) o.toNat

/-- PREF (R129): no architected effect, no fault, no wait. -/
def execPref (_o : BitVec 4) (_a : BitVec 6) (_f : BitVec 8) (s : State) : Out := .next s.next4

end Sys2Proof.Machine
end

