-- ==== Sys2Proof/Machine/Dispatch.lean ====
section
/-! DEFINITION. One arm for each constructor of Instr: a direct call of its meaning. -/

namespace Sys2Proof.Machine
open Sys2Proof

def exec (i : Instr) (s : State) : Host.Outcome State Fault Refusal :=
  match i with
  | .add d a b k => Sys2Proof.Machine.execAdd d a b k s
  | .sub d a b k => Sys2Proof.Machine.execSub d a b k s
  | .mul d a b k => Sys2Proof.Machine.execMul d a b k s
  | .mulh d a b k => Sys2Proof.Machine.execMulh d a b k s
  | .mulhn d a b k => Sys2Proof.Machine.execMulhn d a b k s
  | .div d a b k => Sys2Proof.Machine.execDiv d a b k s
  | .divn d a b k => Sys2Proof.Machine.execDivn d a b k s
  | .rem d a b k => Sys2Proof.Machine.execRem d a b k s
  | .remn d a b k => Sys2Proof.Machine.execRemn d a b k s
  | .and d a b k => Sys2Proof.Machine.execAnd d a b k s
  | .or d a b k => Sys2Proof.Machine.execOr d a b k s
  | .xor d a b k => Sys2Proof.Machine.execXor d a b k s
  | .andn d a b k => Sys2Proof.Machine.execAndn d a b k s
  | .orn d a b k => Sys2Proof.Machine.execOrn d a b k s
  | .shl d a b k => Sys2Proof.Machine.execShl d a b k s
  | .shr d a b k => Sys2Proof.Machine.execShr d a b k s
  | .shra d a b k => Sys2Proof.Machine.execShra d a b k s
  | .rotl d a b k => Sys2Proof.Machine.execRotl d a b k s
  | .rotr d a b k => Sys2Proof.Machine.execRotr d a b k s
  | .min d a b k => Sys2Proof.Machine.execMin d a b k s
  | .max d a b k => Sys2Proof.Machine.execMax d a b k s
  | .minn d a b k => Sys2Proof.Machine.execMinn d a b k s
  | .maxn d a b k => Sys2Proof.Machine.execMaxn d a b k s
  | .cmpeq d a b k => Sys2Proof.Machine.execCmpeq d a b k s
  | .cmpne d a b k => Sys2Proof.Machine.execCmpne d a b k s
  | .cmplt d a b k => Sys2Proof.Machine.execCmplt d a b k s
  | .cmple d a b k => Sys2Proof.Machine.execCmple d a b k s
  | .cmpltn d a b k => Sys2Proof.Machine.execCmpltn d a b k s
  | .cmplen d a b k => Sys2Proof.Machine.execCmplen d a b k s
  | .sel d a b k => Sys2Proof.Machine.execSel d a b k s
  | .clz d a => Sys2Proof.Machine.execClz d a s
  | .ctz d a => Sys2Proof.Machine.execCtz d a s
  | .popc d a => Sys2Proof.Machine.execPopc d a s
  | .brev d a => Sys2Proof.Machine.execBrev d a s
  | .bswp d a => Sys2Proof.Machine.execBswp d a s
  | .sext d a w => Sys2Proof.Machine.execSext d a w s
  | .zext d a w => Sys2Proof.Machine.execZext d a w s
  | .bfx d a b k => Sys2Proof.Machine.execBfx d a b k s
  | .bfi d a b k => Sys2Proof.Machine.execBfi d a b k s
  | .addsh d a b k f0 => Sys2Proof.Machine.execAddsh d a b k f0 s
  | .madd d a b k => Sys2Proof.Machine.execMadd d a b k s
  | .absd d a b k => Sys2Proof.Machine.execAbsd d a b k s
  | .addi d a f0 => Sys2Proof.Machine.execAddi d a f0 s
  | .muli d a f0 => Sys2Proof.Machine.execMuli d a f0 s
  | .andi d a f0 => Sys2Proof.Machine.execAndi d a f0 s
  | .ori d a f0 => Sys2Proof.Machine.execOri d a f0 s
  | .xori d a f0 => Sys2Proof.Machine.execXori d a f0 s
  | .shli d a c => Sys2Proof.Machine.execShli d a c s
  | .shri d a c => Sys2Proof.Machine.execShri d a c s
  | .shrai d a c => Sys2Proof.Machine.execShrai d a c s
  | .rotli d a c => Sys2Proof.Machine.execRotli d a c s
  | .cmpeqi d a f0 => Sys2Proof.Machine.execCmpeqi d a f0 s
  | .cmplti d a f0 => Sys2Proof.Machine.execCmplti d a f0 s
  | .cmpltni d a f0 => Sys2Proof.Machine.execCmpltni d a f0 s
  | .mini d a f0 => Sys2Proof.Machine.execMini d a f0 s
  | .maxi d a f0 => Sys2Proof.Machine.execMaxi d a f0 s
  | .movi h d f0 => Sys2Proof.Machine.execMovi h d f0 s
  | .movk h d f0 => Sys2Proof.Machine.execMovk h d f0 s
  | .movn h d f0 => Sys2Proof.Machine.execMovn h d f0 s
  | .ldb o d a f => Sys2Proof.Machine.execLdb o d a f s
  | .ldh o d a f => Sys2Proof.Machine.execLdh o d a f s
  | .ldw o d a f => Sys2Proof.Machine.execLdw o d a f s
  | .ldd o d a f => Sys2Proof.Machine.execLdd o d a f s
  | .ldbs o d a f => Sys2Proof.Machine.execLdbs o d a f s
  | .ldhs o d a f => Sys2Proof.Machine.execLdhs o d a f s
  | .ldws o d a f => Sys2Proof.Machine.execLdws o d a f s
  | .stb o f0 a f => Sys2Proof.Machine.execStb o f0 a f s
  | .sth o f0 a f => Sys2Proof.Machine.execSth o f0 a f s
  | .stw o f0 a f => Sys2Proof.Machine.execStw o f0 a f s
  | .std o f0 a f => Sys2Proof.Machine.execStd o f0 a f s
  | .pref o a f => Sys2Proof.Machine.execPref o a f s
  | .bz a f => Sys2Proof.Machine.execBz a f s
  | .bnz a f => Sys2Proof.Machine.execBnz a f s
  | .bltz a f => Sys2Proof.Machine.execBltz a f s
  | .bgez a f => Sys2Proof.Machine.execBgez a f s
  | .jmp f => Sys2Proof.Machine.execJmp f s
  | .jal f => Sys2Proof.Machine.execJal f s
  | .jr a => Sys2Proof.Machine.execJr a s
  | .loop a e => Sys2Proof.Machine.execLoop a e s
  | .loopi c e => Sys2Proof.Machine.execLoopi c e s
  | .endl => Sys2Proof.Machine.execEndl s
  | .brkl => Sys2Proof.Machine.execBrkl s
  | .amadd d a b g => Sys2Proof.Machine.execAmadd d a b g s
  | .amfadd d a b g => Sys2Proof.Machine.execAmfadd d a b g s
  | .ammin d a b g => Sys2Proof.Machine.execAmmin d a b g s
  | .ammax d a b g => Sys2Proof.Machine.execAmmax d a b g s
  | .amminn d a b g => Sys2Proof.Machine.execAmminn d a b g s
  | .ammaxn d a b g => Sys2Proof.Machine.execAmmaxn d a b g s
  | .amand d a b g => Sys2Proof.Machine.execAmand d a b g s
  | .amor d a b g => Sys2Proof.Machine.execAmor d a b g s
  | .amxor d a b g => Sys2Proof.Machine.execAmxor d a b g s
  | .amxch d a b g => Sys2Proof.Machine.execAmxch d a b g s
  | .amcas d a b g => Sys2Proof.Machine.execAmcas d a b g s
  | .amincb d a b g => Sys2Proof.Machine.execAmincb d a b g s
  | .lda d a g => Sys2Proof.Machine.execLda d a g s
  | .strl a b g => Sys2Proof.Machine.execStrl a b g s
  | .waita d a b g => Sys2Proof.Machine.execWaita d a b g s
  | .ftset d a b g => Sys2Proof.Machine.execFtset d a b g s
  | .ftsetw d a b g => Sys2Proof.Machine.execFtsetw d a b g s
  | .ftget d a g => Sys2Proof.Machine.execFtget d a g s
  | .fttry d a b g => Sys2Proof.Machine.execFttry d a b g s
  | .phnew d a b => Sys2Proof.Machine.execPhnew d a b s
  | .phreg d a b => Sys2Proof.Machine.execPhreg d a b s
  | .phdrop d a b => Sys2Proof.Machine.execPhdrop d a b s
  | .pharv d a b g => Sys2Proof.Machine.execPharv d a b g s
  | .phwait d a b g => Sys2Proof.Machine.execPhwait d a b g s
  | .pharw d a b g => Sys2Proof.Machine.execPharw d a b g s
  | .phbyt d a b => Sys2Proof.Machine.execPhbyt d a b s
  | .brbase d a b => Sys2Proof.Machine.execBrbase d a b s
  | .bradv d => Sys2Proof.Machine.execBradv d s
  | .brcmp d a b g => Sys2Proof.Machine.execBrcmp d a b g s
  | .rcsnap d a b g => Sys2Proof.Machine.execRcsnap d a b g s
  | .rcinc d a b => Sys2Proof.Machine.execRcinc d a b s
  | .amred d a b g => Sys2Proof.Machine.execAmred d a b g s
  | .fencec m => Sys2Proof.Machine.execFencec m s
  | .fencex p => Sys2Proof.Machine.execFencex p s
  | .fences g => Sys2Proof.Machine.execFences g s
  | .fencef w a b => Sys2Proof.Machine.execFencef w a b s
  | .winset w a => Sys2Proof.Machine.execWinset w a s
  | .winrt w a f0 => Sys2Proof.Machine.execWinrt w a f0 s
  | .wallow w d a => Sys2Proof.Machine.execWallow w d a s
  | .winq w d => Sys2Proof.Machine.execWinq w d s
  | .topord d a => Sys2Proof.Machine.execTopord d a s
  | .rtchk d a b => Sys2Proof.Machine.execRtchk d a b s
  | .trap c => Sys2Proof.Machine.execTrap c s
  | .sysc c => Sys2Proof.Machine.execSysc c s
  | .eret => Sys2Proof.Machine.execEret s
  | .csrrd d n => Sys2Proof.Machine.execCsrrd d n s
  | .csrwr a n => Sys2Proof.Machine.execCsrwr a n s
  | .csrset a n => Sys2Proof.Machine.execCsrset a n s
  | .csrclr a n => Sys2Proof.Machine.execCsrclr a n s
  | .nop => Sys2Proof.Machine.execNop s
  | .idle a => Sys2Proof.Machine.execIdle a s
  | .yield => Sys2Proof.Machine.execYield s
  | .park a => Sys2Proof.Machine.execPark a s
  | .exit => Sys2Proof.Machine.execExit s
  | .spawn d a n => Sys2Proof.Machine.execSpawn d a n s
  | .join d a c => Sys2Proof.Machine.execJoin d a c s
  | .leave d a => Sys2Proof.Machine.execLeave d a s
  | .grpq d a q => Sys2Proof.Machine.execGrpq d a q s
  | .thid d q => Sys2Proof.Machine.execThid d q s
  | .lidx d l => Sys2Proof.Machine.execLidx d l s
  | .tlbinv a q => Sys2Proof.Machine.execTlbinv a q s
  | .ctxsw d a => Sys2Proof.Machine.execCtxsw d a s
  | .brkp c => Sys2Proof.Machine.execBrkp c s
  | .tkpush d a b r => Sys2Proof.Machine.execTkpush d a b r s
  | .tkpop d w => Sys2Proof.Machine.execTkpop d w s
  | .tkdone d => Sys2Proof.Machine.execTkdone d s
  | .tkpeek d a q => Sys2Proof.Machine.execTkpeek d a q s
  | .jcnt d a b => Sys2Proof.Machine.execJcnt d a b s
  | .rngget d a b => Sys2Proof.Machine.execRngget d a b s
  | .schnxt d a => Sys2Proof.Machine.execSchnxt d a s
  | .dlset d a b f0 => Sys2Proof.Machine.execDlset d a b f0 s
  | .dlchk d a => Sys2Proof.Machine.execDlchk d a s
  | .grdshp d a t => Sys2Proof.Machine.execGrdshp d a t s
  | .grdval d a t => Sys2Proof.Machine.execGrdval d a t s
  | .grdhlth d a => Sys2Proof.Machine.execGrdhlth d a s
  | .recmrk d a => Sys2Proof.Machine.execRecmrk d a s
  | .ctkset d a c => Sys2Proof.Machine.execCtkset d a c s
  | .ctkchk d a => Sys2Proof.Machine.execCtkchk d a s
  | .lfwd d a b => Sys2Proof.Machine.execLfwd d a b s
  | .ldgr d a b => Sys2Proof.Machine.execLdgr d a b s
  | .lwgr d a b => Sys2Proof.Machine.execLwgr d a b s
  | .lupd d a b => Sys2Proof.Machine.execLupd d a b s
  | .mcld d a b => Sys2Proof.Machine.execMcld d a b s
  | .mcstat d a q => Sys2Proof.Machine.execMcstat d a q s
  | .vx idx sel val => Sys2Proof.Machine.execVx idx sel val s
  | .mx idx sel val => Sys2Proof.Machine.execMx idx sel val s
  | .cx idx sel val => Sys2Proof.Machine.execCx idx sel val s
  | .sx idx sel val => Sys2Proof.Machine.execSx idx sel val s
  | .ecmd e a b f0 => Sys2Proof.Machine.execEcmd e a b f0 s
  | .tplld e a f0 => Sys2Proof.Machine.execTplld e a f0 s
  | .tplrd e a f0 => Sys2Proof.Machine.execTplrd e a f0 s
  | .efence e => Sys2Proof.Machine.execEfence e s
  | .ebusy e a => Sys2Proof.Machine.execEbusy e a s
  | .vadd => Sys2Proof.Machine.execVadd s
  | .vsub => Sys2Proof.Machine.execVsub s
  | .vmin => Sys2Proof.Machine.execVmin s
  | .vmax => Sys2Proof.Machine.execVmax s
  | .vabs => Sys2Proof.Machine.execVabs s
  | .vneg => Sys2Proof.Machine.execVneg s
  | .vand => Sys2Proof.Machine.execVand s
  | .vor => Sys2Proof.Machine.execVor s
  | .vxor => Sys2Proof.Machine.execVxor s
  | .vshl => Sys2Proof.Machine.execVshl s
  | .vshr => Sys2Proof.Machine.execVshr s
  | .vshra => Sys2Proof.Machine.execVshra s
  | .vceq => Sys2Proof.Machine.execVceq s
  | .vcne => Sys2Proof.Machine.execVcne s
  | .vclt => Sys2Proof.Machine.execVclt s
  | .vcle => Sys2Proof.Machine.execVcle s
  | .vsel => Sys2Proof.Machine.execVsel s
  | .vmov => Sys2Proof.Machine.execVmov s
  | .vclz => Sys2Proof.Machine.execVclz s
  | .vpopc => Sys2Proof.Machine.execVpopc s
  | .vmul => Sys2Proof.Machine.execVmul s
  | .vfma => Sys2Proof.Machine.execVfma s
  | .vfms => Sys2Proof.Machine.execVfms s
  | .vfnma => Sys2Proof.Machine.execVfnma s
  | .vmulh => Sys2Proof.Machine.execVmulh s
  | .vdot2 => Sys2Proof.Machine.execVdot2 s
  | .vrcp => Sys2Proof.Machine.execVrcp s
  | .vrsq => Sys2Proof.Machine.execVrsq s
  | .vsqrt => Sys2Proof.Machine.execVsqrt s
  | .vexp2 => Sys2Proof.Machine.execVexp2 s
  | .vlog2 => Sys2Proof.Machine.execVlog2 s
  | .vsin => Sys2Proof.Machine.execVsin s
  | .vcos => Sys2Proof.Machine.execVcos s
  | .vtanh => Sys2Proof.Machine.execVtanh s
  | .vsigm => Sys2Proof.Machine.execVsigm s
  | .verf => Sys2Proof.Machine.execVerf s
  | .vcvt => Sys2Proof.Machine.execVcvt s
  | .vqnt => Sys2Proof.Machine.execVqnt s
  | .vdqnt => Sys2Proof.Machine.execVdqnt s
  | .vsrnd => Sys2Proof.Machine.execVsrnd s
  | .vnfc => Sys2Proof.Machine.execVnfc s
  | .vbsi => Sys2Proof.Machine.execVbsi s
  | .vbsr => Sys2Proof.Machine.execVbsr s
  | .vbsq => Sys2Proof.Machine.execVbsq s
  | .vperm => Sys2Proof.Machine.execVperm s
  | .vshuf => Sys2Proof.Machine.execVshuf s
  | .vbcst => Sys2Proof.Machine.execVbcst s
  | .vreda => Sys2Proof.Machine.execVreda s
  | .vredm => Sys2Proof.Machine.execVredm s
  | .vscan => Sys2Proof.Machine.execVscan s
  | .vcmpr => Sys2Proof.Machine.execVcmpr s
  | .vld => Sys2Proof.Machine.execVld s
  | .vst => Sys2Proof.Machine.execVst s
  | .vldg => Sys2Proof.Machine.execVldg s
  | .vstg => Sys2Proof.Machine.execVstg s
  | .vgth => Sys2Proof.Machine.execVgth s
  | .vsct => Sys2Proof.Machine.execVsct s
  | .vldt => Sys2Proof.Machine.execVldt s
  | .vsta => Sys2Proof.Machine.execVsta s
  | .vstaArrival => Sys2Proof.Machine.execVstaArrival s
  | .mlds cph stile soff depth kn nc => Sys2Proof.Machine.execMlds cph stile soff depth kn nc s
  | .mswp cph => Sys2Proof.Machine.execMswp cph s
  | .mstr cph otile orow nr acc src stile orient soff kstr koff kn => Sys2Proof.Machine.execMstr cph otile orow nr acc src stile orient soff kstr koff kn s
  | .mzro cph otile => Sys2Proof.Machine.execMzro cph otile s
  | .mdrn cph itile irow nr otile ooff fmt raw rm hnorm rot sdiv grad nfc seed => Sys2Proof.Machine.execMdrn cph itile irow nr otile ooff fmt raw rm hnorm rot sdiv grad nfc seed s
  | .mhad cph => Sys2Proof.Machine.execMhad cph s
  | .mred cph en => Sys2Proof.Machine.execMred cph en s
  | .mxbw cph stile soff src p0 np rm seed => Sys2Proof.Machine.execMxbw cph stile soff src p0 np rm seed s
  | .mxbl cph p0 np orient otile ooff ofmt => Sys2Proof.Machine.execMxbl cph p0 np orient otile ooff ofmt s
  | .mwait cph => Sys2Proof.Machine.execMwait cph s
  | .mstat cph otile ooff => Sys2Proof.Machine.execMstat cph otile ooff s
  | .matrixCommandComplete => Sys2Proof.Machine.execMatrixCommandComplete s
  | .cpy cph dtile doff xsel xaddr => Sys2Proof.Machine.execCpy cph dtile doff xsel xaddr s
  | .cpym cph dtile doff xsel xaddr => Sys2Proof.Machine.execCpym cph dtile doff xsel xaddr s
  | .cpyf cph dtile doff xsel xaddr => Sys2Proof.Machine.execCpyf cph dtile doff xsel xaddr s
  | .cpyt cph dtile doff xsel xaddr => Sys2Proof.Machine.execCpyt cph dtile doff xsel xaddr s
  | .cpyc cph dtile doff xsel xaddr => Sys2Proof.Machine.execCpyc cph dtile doff xsel xaddr s
  | .cpyg cph dtile doff xsel xaddr => Sys2Proof.Machine.execCpyg cph dtile doff xsel xaddr s
  | .cpyr cph dtile doff xsel xaddr => Sys2Proof.Machine.execCpyr cph dtile doff xsel xaddr s
  | .cpyx cph tcph => Sys2Proof.Machine.execCpyx cph tcph s
  | .copyDequeue => Sys2Proof.Machine.execCopyDequeue s
  | .copyComplete => Sys2Proof.Machine.execCopyComplete s
  | .cpyfFollowOnEnqueue => Sys2Proof.Machine.execCpyfFollowOnEnqueue s
  | .copySaveTimeout => Sys2Proof.Machine.execCopySaveTimeout s
  | .nten cph ch tile off len fmt mode ncol voff vlen => Sys2Proof.Machine.execNten cph ch tile off len fmt mode ncol voff vlen s
  | .ntoff cph ch => Sys2Proof.Machine.execNtoff cph ch s
  | .ntrd cph ch otile ooff clr => Sys2Proof.Machine.execNtrd cph ch otile ooff clr s
  | .alb cph atile aoff btile boff k ttile toff => Sys2Proof.Machine.execAlb cph atile aoff btile boff k ttile toff s
  | .smpl cph otile start asrc p0 atile aoff btile boff ttile toff k => Sys2Proof.Machine.execSmpl cph otile start asrc p0 atile aoff btile boff ttile toff k s
  | .sset cph tau nmin nmax chk => Sys2Proof.Machine.execSset cph tau nmin nmax chk s
  | .sseed cph seed => Sys2Proof.Machine.execSseed cph seed s
  | .svarStore cph otile ooff => Sys2Proof.Machine.execSvarStore cph otile ooff s
  | .svarLoad cph otile ooff => Sys2Proof.Machine.execSvarLoad cph otile ooff s
  | .scnt cph cnt => Sys2Proof.Machine.execScnt cph cnt s
  | .samplingCommandComplete => Sys2Proof.Machine.execSamplingCommandComplete s
  | .slotSwitch => Sys2Proof.Machine.execSlotSwitch s
  | .blockedSlotWake => Sys2Proof.Machine.execBlockedSlotWake s
  | .idleExpire => Sys2Proof.Machine.execIdleExpire s
  | .parkedSlotWake => Sys2Proof.Machine.execParkedSlotWake s
  | .resultLanding => Sys2Proof.Machine.execResultLanding s
  | .cisternStorePerform => Sys2Proof.Machine.execCisternStorePerform s
  | .variableLoadLanding => Sys2Proof.Machine.execVariableLoadLanding s
  | .templateLoadLands => Sys2Proof.Machine.execTemplateLoadLands s
  | .syncResultLands => Sys2Proof.Machine.execSyncResultLands s
  | .landingRecordEntryLands => Sys2Proof.Machine.execLandingRecordEntryLands s
  | .exitFinish => Sys2Proof.Machine.execExitFinish s
  | .engineArrival => Sys2Proof.Machine.execEngineArrival s
  | .phaserErrorArrival => Sys2Proof.Machine.execPhaserErrorArrival s
  | .waitaWake => Sys2Proof.Machine.execWaitaWake s
  | .waitaTimeout => Sys2Proof.Machine.execWaitaTimeout s
  | .waitaPoll => Sys2Proof.Machine.execWaitaPoll s
  | .combiningDrainTimeout => Sys2Proof.Machine.execCombiningDrainTimeout s
  | .packetForward => Sys2Proof.Machine.execPacketForward s
  | .remoteRequestArrive => Sys2Proof.Machine.execRemoteRequestArrive s
  | .postedWriteAck => Sys2Proof.Machine.execPostedWriteAck s
  | .remoteReplyReceived => Sys2Proof.Machine.execRemoteReplyReceived s
  | .bounceReceived => Sys2Proof.Machine.execBounceReceived s
  | .fabTimeout => Sys2Proof.Machine.execFabTimeout s
  | .sequenceGapTimeout => Sys2Proof.Machine.execSequenceGapTimeout s
  | .wellheadDispatch => Sys2Proof.Machine.execWellheadDispatch s
  | .remotePushArrive => Sys2Proof.Machine.execRemotePushArrive s
  | .remotePushReply => Sys2Proof.Machine.execRemotePushReply s
  | .deadlineExpiry => Sys2Proof.Machine.execDeadlineExpiry s
  | .pump => Sys2Proof.Machine.execPump s
  | .pendingStrokeStart => Sys2Proof.Machine.execPendingStrokeStart s
  | .strokeEnd => Sys2Proof.Machine.execStrokeEnd s
  | .traceVersionInstall => Sys2Proof.Machine.execTraceVersionInstall s
  | .graphUpload => Sys2Proof.Machine.execGraphUpload s
  | .graphDelete => Sys2Proof.Machine.execGraphDelete s
  | .traceUpload => Sys2Proof.Machine.execTraceUpload s
  | .playerTemplate => Sys2Proof.Machine.execPlayerTemplate s
  | .playerPhwait => Sys2Proof.Machine.execPlayerPhwait s
  | .playerPharv => Sys2Proof.Machine.execPlayerPharv s
  | .playerWaitn => Sys2Proof.Machine.execPlayerWaitn s
  | .playerCall => Sys2Proof.Machine.execPlayerCall s
  | .playerDone => Sys2Proof.Machine.execPlayerDone s
  | .playerMark => Sys2Proof.Machine.execPlayerMark s
  | .playerGuard => Sys2Proof.Machine.execPlayerGuard s
  | .playerEnd => Sys2Proof.Machine.execPlayerEnd s
  | .completionBitReceived => Sys2Proof.Machine.execCompletionBitReceived s
  | .guardStopBroadcast => Sys2Proof.Machine.execGuardStopBroadcast s
  | .handOff => Sys2Proof.Machine.execHandOff s
  | .expansionStart => Sys2Proof.Machine.execExpansionStart s
  | .expansionEnd => Sys2Proof.Machine.execExpansionEnd s
  | .microEnd => Sys2Proof.Machine.execMicroEnd s
  | .microIssue => Sys2Proof.Machine.execMicroIssue s
  | .microAdd => Sys2Proof.Machine.execMicroAdd s
  | .microSub => Sys2Proof.Machine.execMicroSub s
  | .microMul => Sys2Proof.Machine.execMicroMul s
  | .microShl => Sys2Proof.Machine.execMicroShl s
  | .microShr => Sys2Proof.Machine.execMicroShr s
  | .microAnd => Sys2Proof.Machine.execMicroAnd s
  | .microOr => Sys2Proof.Machine.execMicroOr s
  | .microMinn => Sys2Proof.Machine.execMicroMinn s
  | .microMaxn => Sys2Proof.Machine.execMicroMaxn s
  | .microDivn => Sys2Proof.Machine.execMicroDivn s
  | .microLdd => Sys2Proof.Machine.execMicroLdd s
  | .microLoop => Sys2Proof.Machine.execMicroLoop s
  | .microLend => Sys2Proof.Machine.execMicroLend s
  | .microWaitAll => Sys2Proof.Machine.execMicroWaitAll s
  | .microWaitPhaser => Sys2Proof.Machine.execMicroWaitPhaser s
  | .microArrv => Sys2Proof.Machine.execMicroArrv s
  | .microOpt => Sys2Proof.Machine.execMicroOpt s
  | .microJnz => Sys2Proof.Machine.execMicroJnz s
  | .contextLaunch => Sys2Proof.Machine.execContextLaunch s
  | .contextSave => Sys2Proof.Machine.execContextSave s
  | .contextSaveInstall => Sys2Proof.Machine.execContextSaveInstall s
  | .contextRestore => Sys2Proof.Machine.execContextRestore s
  | .contextEnd => Sys2Proof.Machine.execContextEnd s
  | .saveClose => Sys2Proof.Machine.execSaveClose s
  | .hardStop => Sys2Proof.Machine.execHardStop s
  | .switchComplete => Sys2Proof.Machine.execSwitchComplete s
  | .translationWalkDone => Sys2Proof.Machine.execTranslationWalkDone s
  | .xltInvAsid => Sys2Proof.Machine.execXltInvAsid s
  | .xltInvAddr => Sys2Proof.Machine.execXltInvAddr s
  | .xltInvAll => Sys2Proof.Machine.execXltInvAll s
  | .corePartWrite => Sys2Proof.Machine.execCorePartWrite s
  | .viewRegisterWrite => Sys2Proof.Machine.execViewRegisterWrite s
  | .seqStatWrite => Sys2Proof.Machine.execSeqStatWrite s
  | .lsDepthWrite => Sys2Proof.Machine.execLsDepthWrite s
  | .scopeSgWrite => Sys2Proof.Machine.execScopeSgWrite s
  | .nfCbaseWrite => Sys2Proof.Machine.execNfCbaseWrite s
  | .fltBaseWrite => Sys2Proof.Machine.execFltBaseWrite s
  | .linkRetrainRequest => Sys2Proof.Machine.execLinkRetrainRequest s
  | .registerWrite => Sys2Proof.Machine.execRegisterWrite s
  | .hostMemAccess => Sys2Proof.Machine.execHostMemAccess s
  | .correctableError => Sys2Proof.Machine.execCorrectableError s
  | .uncorrectableError => Sys2Proof.Machine.execUncorrectableError s
  | .patrolScrub => Sys2Proof.Machine.execPatrolScrub s
  | .flitCrcFail => Sys2Proof.Machine.execFlitCrcFail s
  | .flitAck => Sys2Proof.Machine.execFlitAck s
  | .linkRetrainTimeout => Sys2Proof.Machine.execLinkRetrainTimeout s
  | .linkRetrainSuccess => Sys2Proof.Machine.execLinkRetrainSuccess s
  | .sensorThreshold => Sys2Proof.Machine.execSensorThreshold s
  | .thermalHalt => Sys2Proof.Machine.execThermalHalt s
  | .operatingPointChange => Sys2Proof.Machine.execOperatingPointChange s
  | .bootVerify => Sys2Proof.Machine.execBootVerify s
  | .clusterSelfTest => Sys2Proof.Machine.execClusterSelfTest s
  | .attestationReport => Sys2Proof.Machine.execAttestationReport s
  | .hostLinkTraining => Sys2Proof.Machine.execHostLinkTraining s
  | .hbmStackTraining => Sys2Proof.Machine.execHbmStackTraining s
  | .flitNackReceived => Sys2Proof.Machine.execFlitNackReceived s
  | .flitParityReceived => Sys2Proof.Machine.execFlitParityReceived s
  | .powerRemoved => Sys2Proof.Machine.execPowerRemoved s

end Sys2Proof.Machine
end

