-- ==== Sys2Proof/Machine/Step.lean ====
section
/-! DEFINITION. One step of the machine (log 10, DEDUCED), and the placing of an instruction where the next step fetches. -/

namespace Sys2Proof.Machine
open Sys2Proof

/-- One step: a step already waiting, the next one due, the agents' new steps, the issue of one core, or the end of the
clk (log 82, DEDUCED). -/
def step (s : State) : Host.Outcome State Fault Refusal :=
  if !s.powered then .fault .noPower
  else
    match s.now with
    | e :: rest => exec e.op { s with now := rest, cur := e.who }
    | [] =>
      match s.phase with
      | .land =>
        match s.nextDue with
        | some (e, rest) => exec e.op { s with agenda := rest, cur := e.who }
        | none => .next { s with phase := .start, now := s.scan }
      | .start => .next { s with phase := .issue, turn := s.issuers }
      | .issue =>
        match s.turn with
        | (d, c) :: rest => ({ s with turn := rest }).issueCore exec d c
        | [] => .next { s with phase := .late, now := s.lateScan }
      | .late => .next (s.tick exec)

/-- The core that issues next, and its slot. -/
def State.nextIssuer (s : State) : Subject :=
  match s.turn with
  | (d, c) :: _ => { die := d, core := c, slot := ((s.core d c).active).getD 0 }
  | [] => { core := 768 }

/-- The state with an instruction stored where the core that issues next fetches it (log 1, DESIGN CHOICE). -/
def State.withFetchWord (s : State) (nbits w : Nat) : State :=
  let s' := s.as s.nextIssuer
  match s'.fetchLoc with
  | .ok l => (s'.poke l ((nbits + 7) / 8) (w % 2 ^ nbits)).as s.cur
  | _ => s

end Sys2Proof.Machine
end

