-- ==== Sys2Proof/Safety.lean ====
section
/-! DEFINITION. What counts as a safe run, and the relations between a state and the next one in which statements are
made. -/

namespace Sys2Proof.Machine
open Sys2Proof

/-! ### Runs -/

/-- The step answers a next state. -/
def State.proceeds (s : State) : Prop := ∃ t, step s = .next t

/-- The state after n steps, while each answers a next state. -/
def State.after (s : State) : Nat → Option State
  | 0 => some s
  | n + 1 =>
    match step s with
    | .next t => t.after n
    | _ => none

/-- Every step of the first n answers a next state: no fault and no refusal. -/
def State.safeFor (s : State) (n : Nat) : Prop := (s.after n).isSome

/-! ### Frames -/

/-- Every byte of every memory reads as before. -/
def State.SameMemory (s t : State) : Prop := ∀ l, t.peek l 1 = s.peek l 1

/-- Nothing but slots has changed: no other field of a core, of a die or of the machine. -/
def State.OnlySlots (s t : State) : Prop :=
  t = { s with dies := t.dies } ∧
  (∀ d, t.die d = { s.die d with cores := (t.die d).cores }) ∧
  (∀ d c, t.core d c = { s.core d c with slots := (t.core d c).slots })

/-- Nothing but cores has changed: no other field of a die or of the machine. -/
def State.OnlyCores (s t : State) : Prop :=
  t = { s with dies := t.dies } ∧ ∀ d, t.die d = { s.die d with cores := (t.die d).cores }

/-- Every slot but the one that the step concerns is as before. -/
def State.OthersAlone (s t : State) : Prop :=
  ∀ d c i, ¬(d = s.cur.die ∧ c = s.cur.core ∧ i = s.cur.slot) → t.slot d c i = s.slot d c i

/-- Every core but the one that the step concerns is as before. -/
def State.OtherCoresAlone (s t : State) : Prop := ∀ d c, ¬(d = s.cur.die ∧ c = s.cur.core) → t.core d c = s.core d c

/-- Nothing has changed but the slot that the step concerns; and no byte of memory. -/
def State.OnlyMe (s t : State) : Prop := s.OnlySlots t ∧ s.OthersAlone t ∧ s.SameMemory t

/-- A slot after a word that writes one register and goes on: the value, readable n clk after the issue; x0 keeps
reading 0; a mark of the register goes; every other register and every other field is as before. -/
def Slot.Writes (x y : Slot) (clk : Nat) (d : BitVec 6) (v : Word) (n : Nat) : Prop :=
  y.rx d = (if d = 0 then 0 else v) ∧
  (∀ r, r ≠ d → y.rx r = x.rx r) ∧
  y.pc = alignPc (x.pc + 4) ∧
  (∀ c, y.locked c d = (d != 0 && decide (1 < n) && decide (c < clk + n))) ∧
  (∀ c r, r ≠ d → y.locked c r = x.locked c r) ∧
  y.lateX = (if d = 0 then x.lateX else x.lateX.filter fun e => e.1 != d.toNat) ∧
  y = { x with x := y.x, lock := y.lock, lateX := y.lateX, pc := y.pc }

/-- The word completes: the outcome is a next state, in which it has written register d with v, readable n clk later, and
gone on to the next word; nothing else has changed. -/
def State.WritesX (s : State) (o : Out) (d : BitVec 6) (v : Word) (n : Nat) : Prop :=
  ∃ t, o = .next t ∧ s.OnlyMe t ∧ s.me.Writes t.me s.clk d v n

/-- The word completes: the outcome is a next state, in which its slot is y and nothing else has changed. -/
def State.Becomes (s : State) (o : Out) (y : Slot) : Prop := ∃ t, o = .next t ∧ s.OnlyMe t ∧ t.me = y

/-- The step completes: the outcome is a next state, in which its core is k and nothing else has changed. -/
def State.BecomesCore (s : State) (o : Out) (k : Core) : Prop :=
  ∃ t, o = .next t ∧ s.OnlyCores t ∧ s.OtherCoresAlone t ∧ t.here = k

/-- Nothing has changed but the die that the step concerns. -/
def State.OnlyMyDie (s t : State) : Prop := t = { s with dies := t.dies } ∧ ∀ d, d ≠ s.cur.die → t.die d = s.die d

/-- The step completes: the outcome is a next state, in which its die is x, with cores that read as those of x, and nothing
else has changed. -/
def State.BecomesDie (s : State) (o : Out) (x : Die) : Prop :=
  ∃ t, o = .next t ∧ s.OnlyMyDie t ∧ t.myDie = { x with cores := t.myDie.cores } ∧ ∀ c, t.myDie.core c = x.core c

/-! ### Stores -/

/-- The n bytes at a place hold the low bytes of v, and every other byte of memory reads as before. -/
def State.Stores (s t : State) (l : Loc) (n v : Nat) : Prop :=
  (∀ i, i < n → t.peek (l.plus i) 1 = v / 256 ^ i % 256) ∧
  (∀ m, (∀ i, i < n → m ≠ l.plus i) → t.peek m 1 = s.peek m 1)

/-- Nothing but memories and slots has changed, and the steps of this clk that a store of a watched line adds (R265). -/
def State.OnlyMemories (s t : State) : Prop :=
  t = { s with dies := t.dies, hostMem := t.hostMem, now := t.now } ∧
  (∀ d, t.die d = { s.die d with cores := (t.die d).cores, hbm := (t.die d).hbm, sync := (t.die d).sync }) ∧
  (∀ d c, t.core d c = { s.core d c with slots := (t.core d c).slots, cistern := (t.core d c).cistern })

/-- Nothing but slots has changed, the steps to come, and the numbers that new objects and free values take. -/
def State.OnlySlotsAndSteps (s t : State) : Prop :=
  t = { s with dies := t.dies, now := t.now, agenda := t.agenda, ids := t.ids, fresh := t.fresh } ∧
  (∀ d, t.die d = { s.die d with cores := (t.die d).cores }) ∧
  (∀ d c, t.core d c = { s.core d c with slots := (t.core d c).slots })

/-- Nothing but cores has changed, the steps to come, the packets under way, and the numbers that new objects and free
values take. -/
def State.OnlyCoresAndSteps (s t : State) : Prop :=
  t = { s with dies := t.dies, now := t.now, agenda := t.agenda, ids := t.ids, fresh := t.fresh, packets := t.packets } ∧
  ∀ d, t.die d = { s.die d with cores := (t.die d).cores }

/-- A slot after its word: at the next word, with every other field as before. -/
def Slot.passed (x : Slot) : Slot := { x with pc := alignPc (x.pc + 4) }

/-- The word goes on, and its result is pending with the values given, which land by a later step `op`; no register x
changes yet. -/
def State.Answers (s t : State) (dest : Dest) (vals : List Word) (op : Instr) : Prop :=
  t.me.pc = alignPc (s.me.pc + 4) ∧ (∀ r, t.rx r = s.rx r) ∧
  ∃ p due, p ∈ t.me.pend ∧ p.dest = dest ∧ p.answered = true ∧ p.vals = vals ∧ p.late = none ∧ s.clk < due ∧
    (due, { who := { die := s.cur.die, core := s.cur.core, slot := s.cur.slot, id := p.id }, op := op }) ∈ t.agenda

/-! ### Waits that hold nothing back -/

/-- A fence finds nothing to drain, nothing to wait for and no error to report. -/
def State.fenceClear (s : State) (f : FenceSet) : Prop :=
  (∀ e ∈ s.here.comb, f.entry e = false) ∧
  (∀ a ∈ s.here.awaits, a.of s.cur.slot = true → f.request a = false) ∧
  (∀ l ∈ s.me.lands, f.store l = false) ∧ (∀ p ∈ s.me.pend, f.result p = false) ∧
  (∀ a ∈ s.here.arrivals, a.slot = s.cur.slot → f.arrival a = false) ∧ s.here.errWindow f.window = none

/-- What a word waits for that is ordered after every earlier access of its slot: what a release at scope entry g waits for,
and remote loads (R257, R295). -/
def State.allSet (s : State) (g : Nat) : FenceSet :=
  let f := s.releaseSet g
  { f with request := fun a => f.request a || a.loads }

/-- A sync operation at a place of this system can leave: its home is ready, fewer than 32 are in flight, no earlier one of the
slot is under way to the same home, and the scope group, when it has one, exists and its release has nothing to wait for
(R257, R259, R493). -/
def State.syncClear (s : State) (l : Loc) (g : Option (BitVec 5)) : Prop :=
  (s.die (s.homeOf l s.cur.die)).rdy.getLsbD 19 = true ∧ s.here.syncInFlight < 32 ∧
  s.syncAhead (s.homeOf l s.cur.die) = false ∧
  ∀ n, g = some n → s.scopeBad n.toNat = false ∧ s.fenceClear (s.allSet n.toNat)

/-- The slot waits at its word for the answer of the operation that it has sent, whose result goes to `dest`. -/
def State.Waits (s t : State) (dest : Dest) : Prop :=
  t.me.st = .blocked ∧ t.me.wait = .answer s.ids ∧ t.me.pc = s.me.pc ∧ (∀ r, t.rx r = s.rx r) ∧
  ∃ p ∈ t.me.pend, p.id = s.ids ∧ p.dest = dest ∧ p.answered = false

/-- No result of the slot has the number that the next object takes. -/
def State.idUnused (s : State) : Prop := ∀ p ∈ s.me.pend, p.id ≠ s.ids

/-! ### Results on their way -/

/-- The translations of its vector word that the slot keeps after a trigger: those it had while another trigger of it waits
(R156), none after the last. -/
def State.xlLeft (s : State) : List Xlat :=
  if s.now.any fun e => e.who.trig.isSome && e.who.die == s.cur.die && e.who.core == s.cur.core && e.who.slot == s.cur.slot
  then s.me.xl else []

/-- The step completes: the outcome is a next state, in which its slot has one more landing, which performs n clk later by the
step `op`, the translations that triggers still to come need, and the bit-stream state given; nothing else has changed. -/
def State.Lands (s : State) (o : Out) (n : Nat) (op : Instr) (l : Landing) (bs : BitStream := s.me.bs) : Prop :=
  ∃ t, o = .next t ∧ s.OnlySlotsAndSteps t ∧ s.OthersAlone t ∧ s.SameMemory t ∧ t.now = s.now ∧
    t.me = { s.me with lands := s.me.lands ++ [{ l with id := s.ids, due := s.clk + n, sw := s.here.sw }], xl := s.xlLeft, bs := bs } ∧
    t.agenda = s.agenda ++ [(s.clk + n, { who := { s.cur with id := s.ids, trig := none }, op := op })]

/-- The landing that carries a result row of a trigger, and the bytes of it that are written. -/
def rowLanding (v : VTrig) (data : Row) (bytes : BitVec 128) : Landing :=
  { id := 0, due := 0, kind := if v.nw then .latch else .row, unit := v.unit, row := v.drow, data := data, bytes := bytes
    cells := [], sw := 0, fromRec := false, pc := v.pc, arrival := none }

/-- The trigger's result lands n clk later: lanes of w bytes, of which those that `on` names hold `f` and are written, and
the others are 0 and keep their bytes. -/
def State.LandsLanes (s : State) (o : Out) (v : VTrig) (n w : Nat) (on : Nat → Bool) (f : Nat → Nat)
    (bs : BitStream := s.me.bs) : Prop :=
  ∃ data bytes, s.Lands o n .resultLanding (rowLanding v data bytes) bs ∧
    (∀ i, i < 128 / w → laneW w data i = if on i then f i % 2 ^ (8 * w) else 0) ∧
    (∀ b, b < 128 → bytes.getLsbD b = on (b / w))

/-- The step completes: the outcome is a next state, in which the trigger's loaded row is pending with the bytes that the mask
enables, answered, and lands by a later step; nothing else has changed. -/
def State.LoadsRow (s : State) (o : Out) (v : VTrig) (f : Nat → Nat) : Prop :=
  ∃ t p due, o = .next t ∧ s.OnlySlotsAndSteps t ∧ s.OthersAlone t ∧ s.SameMemory t ∧ t.now = s.now ∧
    t.me = { s.me with pend := s.me.pend ++ [p], xl := s.xlLeft } ∧ p.id = s.ids ∧
    p.dest = (if v.nw then .latch else .row v.drow) ∧ p.vq = true ∧ p.answered = true ∧ p.late = none ∧ p.sw = s.here.sw ∧
    (∀ b, b < 128 → p.bytes.getLsbD b = v.mask.getLsbD (b / v.ety.w)) ∧
    (∀ b, b < 128 → v.mask.getLsbD (b / v.ety.w) = true → rowNat p.data b 1 = f b % 256) ∧ s.clk < due ∧
    t.agenda = s.agenda ++ [(due, { who := { die := s.cur.die, core := s.cur.core, slot := s.cur.slot, id := s.ids }
                                    op := .variableLoadLanding })]

/-! ### Memories -/

/-- Every memory of the machine is in its canonical form: host memory, the HBM and the sync region of every die, and the
cistern of every core. -/
def State.memoriesWf (s : State) : Prop :=
  s.hostMem.wf = true ∧ ∀ d, (s.die d).hbm.wf = true ∧ (s.die d).sync.wf = true ∧ ∀ c, (s.core d c).cistern.wf = true

end Sys2Proof.Machine
end

