-- ==== Sys2Proof/Certificates/Slice0/Obligations.lean ====
section
/-! DEFINITION. The statements about this machine that the provers settle. -/

open Sys2Proof Sys2Proof.Machine

/-! ### Scalar registers (classes 0x0 and 0x1) -/

/-- R121, R119: each word of class 0x0 writes xd with its value, readable after its latency, goes on to the next word,
and changes nothing else: no other register, no byte of memory, no special register. -/
def Obligations.AluRegisterResults : Prop :=
  ∀ (s : State) (d a b : BitVec 6) (k : Bool), s.cur.slot < 4 →
    let x := s.rx a
    let y := s.op2 b k
    let pos := y.toNat % 64
    let w := min (y.toNat / 64 % 128) (64 - pos)
    (∀ e ∈ ([(Instr.add, x + y), (Instr.sub, x - y), (Instr.and, x &&& y), (Instr.or, x ||| y), (Instr.xor, x ^^^ y),
        (Instr.andn, x &&& ~~~y), (Instr.orn, x ||| ~~~y), (Instr.shl, x <<< (y.toNat % 64)), (Instr.shr, x >>> (y.toNat % 64)),
        (Instr.shra, x.sshiftRight (y.toNat % 64)), (Instr.rotl, x.rotateLeft (y.toNat % 64)),
        (Instr.rotr, x.rotateRight (y.toNat % 64)), (Instr.min, if y.slt x then y else x), (Instr.max, if y.slt x then x else y),
        (Instr.minn, if y.ult x then y else x), (Instr.maxn, if y.ult x then x else y), (Instr.cmpeq, boolWord (x == y)),
        (Instr.cmpne, boolWord (x != y)), (Instr.cmplt, boolWord (x.slt y)), (Instr.cmple, boolWord (x.sle y)),
        (Instr.cmpltn, boolWord (x.ult y)), (Instr.cmplen, boolWord (x.ule y)), (Instr.sel, if s.rx d ≠ 0 then x else y),
        (Instr.absd, BitVec.ofNat 64 (x.toInt - y.toInt).natAbs),
        (Instr.bfx, if y.getLsbD 13 then (x.extractLsb' pos w).signExtend 64 else (x.extractLsb' pos w).setWidth 64)] : List ((BitVec 6 → BitVec 6 → BitVec 6 → Bool → Instr) × Word)),
      s.WritesX (exec (e.1 d a b k) s) d e.2 1) ∧
    (∃ v : Word, (∀ i, i < 64 → v.getLsbD i = if pos ≤ i ∧ i < pos + w then x.getLsbD (i - pos) else (s.rx d).getLsbD i) ∧
      s.WritesX (exec (.bfi d a b k) s) d v 1) ∧
    (∀ sh : BitVec 3, s.WritesX (exec (.addsh d a b k sh) s) d (x + y <<< sh.toNat) 1) ∧
    (∀ e ∈ ([(Instr.mul, x * y), (Instr.mulh, BitVec.ofInt 64 (x.toInt * y.toInt / 2 ^ 64)),
        (Instr.mulhn, BitVec.ofNat 64 (x.toNat * y.toNat / 2 ^ 64)), (Instr.madd, s.rx d + x * y)] :
        List ((BitVec 6 → BitVec 6 → BitVec 6 → Bool → Instr) × Word)), s.WritesX (exec (e.1 d a b k) s) d e.2 3) ∧
    (∀ e ∈ ([(Instr.div, if y = 0 then BitVec.allOnes 64 else BitVec.ofInt 64 (x.toInt.tdiv y.toInt)),
        (Instr.divn, if y = 0 then BitVec.allOnes 64 else BitVec.ofNat 64 (x.toNat / y.toNat)),
        (Instr.rem, if y = 0 then x else BitVec.ofInt 64 (x.toInt.tmod y.toInt)),
        (Instr.remn, if y = 0 then x else BitVec.ofNat 64 (x.toNat % y.toNat))] :
        List ((BitVec 6 → BitVec 6 → BitVec 6 → Bool → Instr) × Word)),
      ∃ n, 6 ≤ n ∧ n ≤ 34 ∧ s.WritesX (exec (e.1 d a b k) s) d e.2 n) ∧
    (∀ e ∈ ([(Instr.clz, BitVec.ofNat 64 (((List.range 64).find? fun i => x.getLsbD (63 - i)).getD 64)),
        (Instr.ctz, BitVec.ofNat 64 (((List.range 64).find? fun i => x.getLsbD i).getD 64)),
        (Instr.popc, BitVec.ofNat 64 ((List.range 64).filter fun i => x.getLsbD i).length),
        (Instr.brev, x.reverse)] : List ((BitVec 6 → BitVec 6 → Instr) × Word)), s.WritesX (exec (e.1 d a) s) d e.2 1) ∧
    (∃ v : Word, (∀ i, i < 8 → v.extractLsb' (8 * i) 8 = x.extractLsb' (8 * (7 - i)) 8) ∧
      s.WritesX (exec (.bswp d a) s) d v 1) ∧
    (∀ w : BitVec 3, w.toNat < 3 →
      s.WritesX (exec (.sext d a w) s) d ((x.setWidth (8 * 2 ^ w.toNat)).signExtend 64) 1 ∧
      s.WritesX (exec (.zext d a w) s) d (BitVec.ofNat 64 (x.toNat % 2 ^ (8 * 2 ^ w.toNat))) 1)

/-- R123, R124, R73, R119: each word of class 0x1 writes xd with its value, goes on, and changes nothing else. -/
def Obligations.ImmediateResults : Prop :=
  ∀ (s : State) (d a : BitVec 6), s.cur.slot < 4 →
    let x := s.rx a
    (∀ (imm : BitVec 10),
      let i : Word := imm.signExtend 64
      (∀ e ∈ ([(Instr.addi, x + i), (Instr.andi, x &&& i), (Instr.ori, x ||| i), (Instr.xori, x ^^^ i),
          (Instr.cmpeqi, boolWord (x == i)), (Instr.cmplti, boolWord (x.slt i)), (Instr.cmpltni, boolWord (x.ult i)),
          (Instr.mini, if x.slt i then x else i), (Instr.maxi, if x.slt i then i else x)] :
          List ((BitVec 6 → BitVec 6 → BitVec 10 → Instr) × Word)), s.WritesX (exec (e.1 d a imm) s) d e.2 1) ∧
      s.WritesX (exec (.muli d a imm) s) d (x * i) 3) ∧
    (∀ c : BitVec 6,
      s.WritesX (exec (.shli d a c) s) d (x <<< c.toNat) 1 ∧ s.WritesX (exec (.shri d a c) s) d (x >>> c.toNat) 1 ∧
      s.WritesX (exec (.shrai d a c) s) d (x.sshiftRight c.toNat) 1 ∧
      s.WritesX (exec (.rotli d a c) s) d (x.rotateLeft c.toNat) 1) ∧
    (∀ (h : BitVec 2) (i : BitVec 16),
      s.WritesX (exec (.movi h d i) s) d (i.setWidth 64 <<< (16 * h.toNat)) 1 ∧
      (∃ v : Word, (∀ j, j < 64 → v.getLsbD j = if j / 16 = h.toNat then i.getLsbD (j % 16) else (s.rx d).getLsbD j) ∧
        s.WritesX (exec (.movk h d i) s) d v 1) ∧
      s.WritesX (exec (.movn h d i) s) d (~~~(i.setWidth 64 <<< (16 * h.toNat))) 1)

/-! ### Control and the loop stack (class 0x3) -/

/-- R130, R68: every branch and jump completes. A branch goes to pc + 4·off18 when its condition on xa holds and to the next
word otherwise, and changes only the program counter; JMP goes to pc + 4·off18 always; JAL writes x63 with the next word's
address, readable in the next clk, goes to pc + 4·off18, and changes nothing else; JR goes to the value of xa when that is a
multiple of 4, and raises the misaligned-PC trap otherwise. -/
def Obligations.BranchEffects : Prop :=
  ∀ (s : State) (a : BitVec 6) (f : BitVec 18), s.cur.slot < 4 →
    let far : Word := alignPc (s.me.pc + 4 * f.signExtend 64)
    let next : Word := alignPc (s.me.pc + 4)
    let goes := fun (i : Instr) (pc : Word) => ∃ t, exec i s = .next t ∧ s.OnlyMe t ∧ t.me = { s.me with pc := pc }
    goes (.bz a f) (if s.rx a = 0 then far else next) ∧
    goes (.bnz a f) (if s.rx a ≠ 0 then far else next) ∧
    goes (.bltz a f) (if (s.rx a).toInt < 0 then far else next) ∧
    goes (.bgez a f) (if 0 ≤ (s.rx a).toInt then far else next) ∧
    goes (.jmp f) far ∧
    (∃ t, exec (.jal f) s = .next t ∧ s.OnlyMe t ∧ t.me.pc = far ∧
      s.me.Writes { t.me with pc := next } s.clk 63 (s.me.pc + 4) 1) ∧
    ((s.rx a).toNat % 4 = 0 → goes (.jr a) (s.rx a)) ∧
    ((s.rx a).toNat % 4 ≠ 0 → exec (.jr a) s = s.raise 0x02 (s.rx a) 0)

/-- R131, R132, R133, R135, R38: the hardware loops. LOOP and LOOPI push an entry, skip a body of no passes, and raise the
loop-count fault and the loop-stack overflow; ENDL goes back or pops, and is a pre-emption point; BRKL pops and leaves; LIDX
reads an index. ENDL and BRKL without an entry, and ENDL at another PC than its entry's, raise the loop-nesting fault. -/
def Obligations.HardwareLoops : Prop :=
  ∀ (s : State) (a d : BitVec 6) (e : BitVec 18) (c m : BitVec 12) (l : BitVec 10), s.cur.slot < 4 →
    let x := s.me
    (∀ o n dist, ((o = exec (.loop a e) s ∧ n = (s.rx a).toNat ∧ dist = e.signExtend 64) ∨
        (o = exec (.loopi c m) s ∧ n = c.toNat ∧ dist = m.setWidth 64)) →
      (n > 0xFFFFFFFF → o = s.raise 0x11 (BitVec.ofNat 64 n) 0) ∧
      (n = 0 → s.Becomes o { x with pc := alignPc (x.pc + 4 * dist + 4) }) ∧
      (0 < n → n ≤ 0xFFFFFFFF → 6 ≤ x.lsDepth → o = s.raise 0x10 0 0) ∧
      (0 < n → n ≤ 0xFFFFFFFF → x.lsDepth < 6 → s.Becomes o { x with
        lsIdx := x.lsIdx.setIfInBounds x.lsDepth (BitVec.ofNat 64 (n * 2 ^ 32))
        lsTop := x.lsTop.setIfInBounds x.lsDepth (x.pc + 4)
        lsEnd := x.lsEnd.setIfInBounds x.lsDepth (x.pc + 4 * dist)
        lsDepth := x.lsDepth + 1
        pc := alignPc (x.pc + 4) })) ∧
    ((x.lsDepth = 0 ∨ vget x.lsEnd (x.lsDepth - 1) 0 ≠ x.pc) → exec .endl s = s.raise 0x0F (BitVec.ofNat 64 x.lsDepth) 0) ∧
    (∀ k i, x.lsDepth = k + 1 → vget x.lsEnd k 0 = x.pc → i = vget x.lsIdx k 0 →
      let y := if i.toNat % 2 ^ 32 + 1 < i.toNat / 2 ^ 32
        then { x with lsIdx := x.lsIdx.setIfInBounds k (i + 1), pc := alignPc (vget x.lsTop k 0) }
        else { x with lsDepth := k, pc := alignPc (x.pc + 4) }
      s.Becomes (exec .endl s) (if x.stopAsked then { y with st := .ready, stopped := true, stopAsked := false } else y)) ∧
    (x.lsDepth = 0 → exec .brkl s = s.raise 0x0F 0 0) ∧
    (∀ k, x.lsDepth = k + 1 →
      s.Becomes (exec .brkl s) { x with lsDepth := k, pc := alignPc (vget x.lsEnd k 0 + 4) }) ∧
    (l.toNat ≤ 5 → s.WritesX (exec (.lidx d l) s) d
      (if l.toNat < x.lsDepth then BitVec.ofNat 64 ((vget x.lsIdx (x.lsDepth - 1 - l.toNat) 0).toNat % 2 ^ 32) else 0) 1) ∧
    (5 < l.toNat → exec (.lidx d l) s = s.raise 0x01 ((encode (.lidx d l)).setWidth 64) 0)

/-! ### Scalar memory (class 0x2) -/

/-- R126, R127, R119: an aligned load of bytes of the own cistern that completes at once, because no command, no accumulator
tile and no load of a row holds them, no late fault waits in a row with them, no store to them is under way while DBGP is 1,
and none of them is poisoned: it writes xd with them, zero- or sign-extended, readable after 3 clk; nothing else changes. -/
def Obligations.OwnCisternLoads : Prop :=
  ∀ (s : State) (o : BitVec 4) (d a : BitVec 6) (f : BitVec 8), s.cur.slot < 4 →
    ∀ e ∈ ([(Instr.ldb, 1, false), (Instr.ldh, 2, false), (Instr.ldw, 4, false), (Instr.ldd, 8, false), (Instr.ldbs, 1, true),
        (Instr.ldhs, 2, true), (Instr.ldws, 4, true)] : List ((BitVec 4 → BitVec 6 → BitVec 6 → BitVec 8 → Instr) × Nat × Bool)),
      let n := e.2.1
      let va := s.rx a + f.signExtend 64 * BitVec.ofNat 64 n
      let off := va.toNat % 2 ^ 40
      va.toNat / 2 ^ 40 = 0xFFFF00 → off < 2 ^ 20 → va.toNat % n = 0 → s.here.held off n false = false →
      s.here.pendingBytes off (off + n) = false → s.here.lateAt off (off + n) = none →
      (s.me.dbgp = true → s.here.pendingWord off (off + n) = none) → s.here.cistern.poisoned 8 off n = false →
      let v := BitVec.ofNat (8 * n) (s.peek (.cistern s.cur.die s.cur.core off) n)
      s.WritesX (exec (e.1 o d a f) s) d (if e.2.2 then v.signExtend 64 else v.setWidth 64) 3

/-- R126, R127, R128, R31: an aligned load from a place outside the own cistern completes when no store of its class of the
slot is under way there and the place is not in a sync region whose engine is not ready (of host memory: while no stroke runs,
whose capture would take the lines). It leaves every register as it was: its result is pending for xd, with the bytes' value,
or with the poison trap that waits for its first reader when a unit of them is poisoned, and lands by a later
VARIABLE_LOAD_LANDING. No byte of memory changes. -/
def Obligations.OtherLoadsPend : Prop :=
  ∀ (s : State) (o : BitVec 4) (d a : BitVec 6) (f : BitVec 8) (l : Loc), s.cur.slot < 4 →
    ∀ e ∈ ([(Instr.ldb, 1, false), (Instr.ldh, 2, false), (Instr.ldw, 4, false), (Instr.ldd, 8, false), (Instr.ldbs, 1, true),
        (Instr.ldhs, 2, true), (Instr.ldws, 4, true)] : List ((BitVec 4 → BitVec 6 → BitVec 6 → BitVec 8 → Instr) × Nat × Bool)),
      let n := e.2.1
      let va := s.rx a + f.signExtend 64 * BitVec.ofNat 64 n
      va.toNat / 2 ^ 40 ≠ 0xFFFF00 → s.operand va n n rightsR = .ok (.loc l) → s.syncWaits l = false →
      s.classWaits o.toNat = false → ((∃ h, l = .host h) → s.myDie.strokeRuns = false) →
      let v := BitVec.ofNat (8 * n) (s.peek l n)
      let w : Word := if e.2.2 then v.signExtend 64 else v.setWidth 64
      ∃ t p due, exec (e.1 o d a f) s = .next t ∧ s.OnlySlotsAndSteps t ∧ s.OthersAlone t ∧ s.SameMemory t ∧
        t.me = { s.me.passed with pend := s.me.pend ++ [p] } ∧ p.id = s.ids ∧ p.dest = .x d.toNat ∧ p.answered = true ∧
        (s.bad l n = false → p.vals = [w] ∧ p.late = none) ∧
        (s.bad l n = true → p.vals = [] ∧ p.late = some { cause := 0x09, pc := s.me.pc, val := va, info := 0 }) ∧ s.clk < due ∧
        t.agenda = s.agenda ++ [(due, { who := { die := s.cur.die, core := s.cur.core, slot := s.cur.slot, id := s.ids }
                                        op := .variableLoadLanding })] ∧ t.now = s.now

/-- R31, R119, R128, R263: an answered scalar load lands. With a value and no late trap, its register takes the value and loses
its mark, the result is no longer pending, and nothing else changes; a load to x0 leaves x0 at 0. With a late trap and no value,
the trap waits in the register, which keeps its value; in x0 it is lost. -/
def Obligations.ScalarLoadLands : Prop :=
  ∀ (s : State) (p : Pend) (n : Nat) (v : Word), s.cur.slot < 4 → n < 64 →
    s.findPend s.cur.die s.cur.core s.cur.slot s.cur.id = some p → p.answered = true → p.dest = .x n →
    let rest := s.me.pend.filter fun q => q.id != p.id
    let marks := s.me.lateX.filter fun e => e.1 != n
    (p.vals = [v] → p.late = none →
      ∃ t, exec .variableLoadLanding s = .next t ∧ s.OnlyMe t ∧ t.rx (BitVec.ofNat 6 n) = (if n = 0 then 0 else v) ∧
        (∀ r : BitVec 6, r.toNat ≠ n → t.rx r = s.rx r) ∧ t.me = { s.me with x := t.me.x, pend := rest, lateX := marks }) ∧
    (∀ m, p.vals = [] → p.late = some m →
      s.Becomes (exec .variableLoadLanding s)
        { s.me with pend := rest, lateX := if n = 0 then s.me.lateX else marks ++ [(n, m)] })

/-- R126, R127: an aligned store at a place where nothing holds it back and no unit is poisoned completes: it writes the low
bytes of xs there in its issue clk. Every other byte of memory, every register and every other field is as before, but for the
steps of this clk in which the watchers of the line compare again (R265); the word goes on. -/
def Obligations.ScalarStores : Prop :=
  ∀ (s : State) (o : BitVec 4) (x a : BitVec 6) (f : BitVec 8) (l : Loc), s.cur.slot < 4 →
    ∀ e ∈ ([(Instr.stb, 1), (Instr.sth, 2), (Instr.stw, 4), (Instr.std, 8)] :
        List ((BitVec 4 → BitVec 6 → BitVec 6 → BitVec 8 → Instr) × Nat)),
      let n := e.2
      let va := s.rx a + f.signExtend 64 * BitVec.ofNat 64 n
      let off := va.toNat % 2 ^ 40
      s.operand va n n rightsW = .ok (.loc l) → s.syncWaits l = false → s.bad l n = false →
      (va.toNat / 2 ^ 40 = 0xFFFF00 →
        s.here.held off n true = false ∧ s.here.pendingBytes off (off + n) = false ∧ s.here.lateAt off (off + n) = none) →
      (va.toNat / 2 ^ 40 ≠ 0xFFFF00 → s.classWaits o.toNat = false) →
      ∃ t, exec (e.1 o x a f) s = .next t ∧ s.Stores t l n (s.rx x).toNat ∧ s.OnlyMemories t ∧ s.OthersAlone t ∧
        t.me = s.me.passed

/-- R74, R127, R337, R340, R297: a load through a window whose checks pass completes: the word goes on with its result
pending. A store through a window whose checks pass, whose sluice has room and which no load of its slot holds back completes:
its bytes join an entry of the combining buffer. No register x, no other slot or core and no byte of memory changes. -/
def Obligations.WindowAccesses : Prop :=
  ∀ (s : State) (o : BitVec 4) (d a : BitVec 6) (f : BitVec 8) (w off : Nat), s.cur.slot < 4 →
    (∀ e ∈ ([(Instr.ldb, 1), (Instr.ldh, 2), (Instr.ldw, 4), (Instr.ldd, 8), (Instr.ldbs, 1), (Instr.ldhs, 2), (Instr.ldws, 4)] :
        List ((BitVec 4 → BitVec 6 → BitVec 6 → BitVec 8 → Instr) × Nat)),
      let n := e.2
      let va := s.rx a + f.signExtend 64 * BitVec.ofNat 64 n
      s.operand va n n rightsR = .ok (.win w off) → s.winOk (s.here.win w) off n true false false = true →
      ∃ t, exec (e.1 o d a f) s = .next t ∧ s.OnlyCoresAndSteps t ∧ s.OtherCoresAlone t ∧ s.OthersAlone t ∧ s.SameMemory t ∧
        t.me = { s.me.passed with pend := t.me.pend } ∧ ∃ p ∈ t.me.pend, p.id = s.ids ∧ p.dest = .x d.toNat) ∧
    (∀ e ∈ ([(Instr.stb, 1), (Instr.sth, 2), (Instr.stw, 4), (Instr.std, 8)] :
        List ((BitVec 4 → BitVec 6 → BitVec 6 → BitVec 8 → Instr) × Nat)),
      let n := e.2
      let va := s.rx a + f.signExtend 64 * BitVec.ofNat 64 n
      s.operand va n n rightsW = .ok (.win w off) → s.winOk (s.here.win w) off n true false true = true →
      s.here.unitsFor w o.toNat off n ≤ (s.here.win w).free → s.mergeWaits w o.toNat (off / 64) = false →
      ∃ t, exec (e.1 o d a f) s = .next t ∧ s.OnlyCoresAndSteps t ∧ s.OtherCoresAlone t ∧ s.OthersAlone t ∧ s.SameMemory t ∧
        t.me = s.me.passed ∧ ∃ c ∈ t.here.comb, c.win = w ∧ c.cls = o.toNat ∧ c.line = off / 64 ∧
          ∀ i, i < n → c.bytes.getLsbD (off % 64 + i) = true ∧
            lineNat c.data (off % 64 + i) 1 = (s.rx d).toNat / 256 ^ i % 256)

/-- R128, R74, R129: a load or store at an address that is no multiple of its size raises the alignment fault with the
address and the size, and neither a register nor memory is written; PREF goes on with no effect whatever its address. -/
def Obligations.MisalignedAccessTraps : Prop :=
  ∀ (s : State) (o : BitVec 4) (x a : BitVec 6) (f : BitVec 8), s.cur.slot < 4 →
    (∀ e ∈ ([(Instr.ldh, 2), (Instr.ldw, 4), (Instr.ldd, 8), (Instr.ldhs, 2), (Instr.ldws, 4), (Instr.sth, 2), (Instr.stw, 4),
        (Instr.std, 8)] : List ((BitVec 4 → BitVec 6 → BitVec 6 → BitVec 8 → Instr) × Nat)),
      let n := e.2
      let va := s.rx a + f.signExtend 64 * BitVec.ofNat 64 n
      va.toNat % n ≠ 0 → exec (e.1 o x a f) s = s.raise 0x06 va (BitVec.ofNat 64 n)) ∧
    s.Becomes (exec (.pref o a f) s) s.me.passed

/-! ### Traps and the return (R106, R107, R118, R137, R138, R149, R150) -/

/-- R149, R137, R33, R118: with INH = 0 a trap captures the landings, saves the PC, the mode and LS.DEPTH, and enters
the handler privileged; TRAP, SYSC and BRKP take it with their causes. No register x, no byte of memory and no other
register changes. -/
def Obligations.TrapEntry : Prop :=
  ∀ (s : State) (c : BitVec 10), s.cur.slot < 4 → s.me.inh = false →
    let y := fun (cause : BitVec 6) (pc val : Word) =>
      { s.me with
        lrec := s.me.lrec ++ s.me.lands.map fun l => { l with due := l.due - s.clk, fromRec := false }
        lands := []
        armed := false
        trapPc := pc
        trapCause := cause
        trapVal := val
        trapInfo := 0
        trapPriv := s.me.priv
        trapDepth := BitVec.ofNat 3 s.me.lsDepth
        priv := true
        inh := true
        pc := s.here.trapVec ++ (0 : BitVec 2)
        wait := .none
        xl := [] }
    s.Becomes (exec (.trap c) s) (y 0x12 (s.me.pc + 4) (c.setWidth 64)) ∧
    s.Becomes (exec (.sysc c) s) (y 0x13 (s.me.pc + 4) (c.setWidth 64)) ∧
    s.Becomes (exec (.brkp c) s) (y 0x14 s.me.pc (c.setWidth 64))

/-- R150, R488, R489: with INH = 1 a trap is a double trap: the slot is BLOCKED for good with its landings not captured
and its trap registers kept, and a record of kind 0x22 with both causes and TRAP.PC goes into the fault ring. -/
def Obligations.DoubleTraps : Prop :=
  ∀ (s : State) (c : BitVec 10), s.cur.slot < 4 → s.me.inh = true →
    let x := s.myDie
    let size := 2 ^ x.fltLog.toNat
    let at_ := x.fltBase.toNat * 4096 % 2 ^ 39 + x.fltTail.toNat % size * 64
    6 ≤ x.fltLog.toNat → x.fltLog.toNat ≤ 20 → (x.fltTail - x.fltHead).toNat < size →
    ∀ e ∈ ([(Instr.trap c, 0x12), (Instr.sysc c, 0x13), (Instr.brkp c, 0x14)] : List (Instr × Nat)),
      let d0 : Word := BitVec.ofNat 64 (s.cur.slot + s.me.trapCause.toNat * 2 ^ 8 + e.2 * 2 ^ 16)
      ∃ t, exec e.1 s = .next t ∧ t.me = { s.me with st := .blocked, wait := .dead, xl := [] } ∧ s.OthersAlone t ∧
        t.peek (.hbm s.cur.die (at_ + 8)) 2 = unitOfCore s.cur.core % 2 ^ 16 ∧ t.peek (.hbm s.cur.die (at_ + 10)) 1 = 0x22 ∧
        t.peek (.hbm s.cur.die (at_ + 48)) 8 = d0.toNat ∧ t.peek (.hbm s.cur.die (at_ + 56)) 8 = s.me.trapPc.toNat ∧
        t.myDie.fltTail = x.fltTail + 1 ∧ t.myDie.posted = x.posted ++ [{ kind := 0x22, a := d0, b := s.me.trapPc }] ∧
        (∀ l, (∀ i, i < 64 → l ≠ .hbm s.cur.die (at_ + i)) → t.peek l 1 = s.peek l 1)

/-- R107, R108, R136, R138, R148: in user mode ERET, TLBINV, CTXSW and a write of a privileged register raise the privilege
trap, with the register's number or 0 as TRAP.VAL; the register is not written. -/
def Obligations.PrivilegeTraps : Prop :=
  ∀ (s : State) (d a : BitVec 6) (q : BitVec 10), s.me.priv = false →
    exec .eret s = s.raise 0x03 0 0 ∧ exec (.tlbinv a q) s = s.raise 0x03 0 0 ∧ exec (.ctxsw d a) s = s.raise 0x03 0 0 ∧
    (∀ n ∈ ([0x000, 0x001, 0x010, 0x018, 0x01D, 0x020, 0x025, 0x028, 0x02D, 0x030, 0x031, 0x032, 0x033, 0x034, 0x035, 0x036,
        0x037, 0x040, 0x181, 0x182, 0x183, 0x200, 0x243, 0x245, 0x280, 0x281, 0x282, 0x301, 0x302, 0x303, 0x381, 0x382, 0x388,
        0x38D] : List (BitVec 10)),
      exec (.csrwr a n) s = s.raise 0x03 (n.setWidth 64) 0 ∧ exec (.csrset a n) s = s.raise 0x03 (n.setWidth 64) 0 ∧
      exec (.csrclr a n) s = s.raise 0x03 (n.setWidth 64) 0)

/-- R138, R36: in privileged mode ERET restores the saved mode and PC and clears INH, and arms the landing record; it
raises the loop-nesting fault and the misaligned-PC trap first, and in user mode the privilege trap. -/
def Obligations.EretReturns : Prop :=
  ∀ (s : State), s.cur.slot < 4 → (s.me.priv = false → exec .eret s = s.raise 0x03 0 0) ∧ (s.me.priv = true →
    (s.me.lsDepth ≠ s.me.trapDepth.toNat → exec .eret s = s.raise 0x0F (BitVec.ofNat 64 s.me.lsDepth) 0) ∧
    (s.me.lsDepth = s.me.trapDepth.toNat → s.me.trapPc.toNat % 4 ≠ 0 → exec .eret s = s.raise 0x02 s.me.trapPc 0) ∧
    (s.me.lsDepth = s.me.trapDepth.toNat → s.me.trapPc.toNat % 4 = 0 →
      s.Becomes (exec .eret s)
        { s.me with priv := s.me.trapPriv, inh := false, pc := s.me.trapPc, armed := !s.me.lrec.isEmpty }))

/-! ### Control registers (R18, R30, R35, R107–R117, R139) -/

/-- R139, R107 and the register maps: CSRRD writes xd with the register's value, readable in the next clk, in either mode;
a number that no chapter assigns raises the illegal-instruction trap. -/
def Obligations.ControlRegisterReads : Prop :=
  ∀ (s : State) (d : BitVec 6), s.cur.slot < 4 →
    let x := s.me
    let k := s.here
    let y := s.myDie
    let bit := fun (b : Bool) (i : Nat) => if b then 2 ^ i else 0
    (∀ e ∈ ([(0x000, BitVec.ofNat 64 (bit x.priv 0 + bit x.inh 1 + s.cur.slot * 2 ^ 10)),
        (0x001, BitVec.ofNat 64 (bit x.chkw 0 + bit x.dbgp 1)), (0x003, BitVec.ofNat 64 s.clk),
        (0x002, BitVec.ofNat 64 (min x.lrecCount 8 + bit (x.lrecCount != 0) 4)),
        (0x008, vget x.vw 0 0), (0x00B, vget x.vw 3 0), (0x00F, vget x.vw 7 0), (0x010, BitVec.ofNat 64 x.lsDepth),
        (0x018, vget x.lsIdx 0 0), (0x01D, vget x.lsIdx 5 0), (0x020, vget x.lsTop 0 0), (0x025, vget x.lsTop 5 0),
        (0x028, vget x.lsEnd 0 0), (0x02D, vget x.lsEnd 5 0), (0x030, x.trapPc), (0x031, x.trapCause.setWidth 64),
        (0x032, x.trapVal), (0x033, x.trapInfo), (0x034, BitVec.ofNat 64 (bit x.trapPriv 0 + x.trapDepth.toNat * 2)),
        (0x035, k.trapVec ++ (0 : BitVec 2)), (0x036, vget x.trapScr 0 0), (0x037, vget x.trapScr 1 0),
        (0x100, k.smp.sum), (0x101, k.smp.cnt.setWidth 64), (0x102, k.smp.var), (0x103, k.smp.tau.setWidth 64),
        (0x106, k.smp.seed), (0x108, k.smp.q), (0x182, k.turn.setWidth 64), (0x183, k.tmo.setWidth 64),
        (0x200, y.dispDev.setWidth 64), (0x240, 0), (0x241, 0), (0x244, y.grKey), (0x280, boolWord k.nfPol),
        (0x302, y.preDl.setWidth 64), (0x303, 0), (0x380, y.rdy.setWidth 64),
        (0x385, BitVec.ofNat 64 (y.bootCode.toNat + y.fwVer.toNat * 2 ^ 32))] : List (BitVec 10 × Word)),
      s.WritesX (exec (.csrrd d e.1) s) d e.2 1) ∧
    (∀ n ∈ ([0x004, 0x007, 0x011, 0x01E, 0x026, 0x02E, 0x038, 0x03F, 0x041, 0x0FF, 0x10A, 0x118, 0x124, 0x184, 0x202, 0x247,
        0x283, 0x289, 0x304, 0x35F, 0x386, 0x38E, 0x3FF] : List (BitVec 10)),
      exec (.csrrd d n) s = s.raise 0x01 ((encode (.csrrd d n)).setWidth 64) 0)

/-- R139, R4, R107: in privileged mode CSRWR, CSRSET and CSRCLR of a register whose bits m may be written, and which has no
rule of its own, leave (c & ~m) | (a & m), c | (a & m) and c & ~(a & m) in it; every other control register, every register
x and every byte of memory stay, and the word goes on. -/
def Obligations.ControlRegisterWrites : Prop :=
  ∀ (s : State) (a : BitVec 6), s.cur.slot < 4 → s.me.priv = true →
    let reg := fun (t : State) (n : Nat) => t.readReg s.cur.die s.cur.core s.cur.slot n
    ∀ e ∈ ([(0x001, 3), (0x018, BitVec.allOnes 64), (0x019, BitVec.allOnes 64), (0x01A, BitVec.allOnes 64),
        (0x01B, BitVec.allOnes 64), (0x01C, BitVec.allOnes 64), (0x01D, BitVec.allOnes 64), (0x020, BitVec.allOnes 64),
        (0x025, BitVec.allOnes 64), (0x028, BitVec.allOnes 64), (0x02D, BitVec.allOnes 64), (0x030, BitVec.allOnes 64),
        (0x031, 0x3F), (0x032, BitVec.allOnes 64), (0x033, BitVec.allOnes 64), (0x034, 0xF), (0x035, ~~~3),
        (0x036, BitVec.allOnes 64), (0x037, BitVec.allOnes 64), (0x181, 0x00FFFFFFFFFFFFC0), (0x182, 0xFFFFFFFFF),
        (0x183, 0xFFFFF), (0x200, 0xF), (0x243, 0xF), (0x280, 1), (0x301, 0x00FFFFFFFFFFF800), (0x302, 0xFFFFFF),
        (0x382, 0x3FFFFE00000)] : List (BitVec 10 × Word)),
      ∀ c, reg s e.1.toNat = some c →
      ∀ f ∈ ([(Instr.csrwr a e.1, (c &&& ~~~e.2) ||| (s.rx a &&& e.2)), (Instr.csrset a e.1, c ||| (s.rx a &&& e.2)),
          (Instr.csrclr a e.1, c &&& ~~~(s.rx a &&& e.2))] : List (Instr × Word)),
        ∃ t, exec f.1 s = .next t ∧ reg t e.1.toNat = some f.2 ∧ (∀ n, n ≠ e.1.toNat → reg t n = reg s n) ∧
          (∀ r, t.rx r = s.rx r) ∧ t.me.pc = alignPc (s.me.pc + 4) ∧ s.SameMemory t ∧ s.OthersAlone t

/-- R19, R22, R109, R111, R287, R429: the registers whose writes have a rule of their own: the write, or the fault that
refuses it and leaves the register. -/
def Obligations.CheckedRegisterWrites : Prop :=
  ∀ (s : State) (v : Word) (n : Nat), s.cur.slot < 4 → s.cur.val = v → s.cur.id = n →
    let k := s.here
    let x := s.me
    let p : Part := { regg := v.toNat % 2 ^ 9, scrg := v.toNat / 2 ^ 9 % 2 ^ 9, accg := v.toNat / 2 ^ 18 % 2 ^ 9 }
    (s.partOk p = true → s.BecomesCore (exec .corePartWrite s) { k with part := p }) ∧
    ((p.regg < 4 ∨ p.regg + p.scrg + p.accg ≠ 256) → exec .corePartWrite s = s.raise 0x0B v 0) ∧
    (n < 8 → vwOk v ((k.part.regg + k.part.accg) * 32) = true →
      s.Becomes (exec .viewRegisterWrite s) { x with vw := x.vw.setIfInBounds n (v &&& vwMask) }) ∧
    (n < 8 → vwOk v ((k.part.regg + k.part.accg) * 32) = false →
      exec .viewRegisterWrite s = s.raise 0x0A (BitVec.ofNat 64 n) 0) ∧
    s.Becomes (exec .seqStatWrite s) { x with inh := v.getLsbD 1 || (x.inh && decide (x.lrecCount ≠ 0)) } ∧
    (v.toNat % 8 ≤ 6 → s.Becomes (exec .lsDepthWrite s) { x with lsDepth := v.toNat % 8 }) ∧
    (v.toNat % 8 = 7 → exec .lsDepthWrite s = s.raise 0x10 0 0) ∧
    (n < 5 → exec .scopeSgWrite s = .next s) ∧
    (5 ≤ n → n < 32 → v.toNat / 2 ^ 13 % 8 < 6 → (v.toNat / 2 ^ 13 % 8 = 5 → v.toNat % 2 ^ 12 ≠ 0) →
      s.BecomesCore (exec .scopeSgWrite s) { k with sg := k.sg.setIfInBounds n (v.toNat / 2 ^ 13 % 8, v.toNat % 2 ^ 12) }) ∧
    (5 ≤ n → n < 32 → (6 ≤ v.toNat / 2 ^ 13 % 8 ∨ v.toNat / 2 ^ 13 % 8 = 5 ∧ v.toNat % 2 ^ 12 = 0) →
      exec .scopeSgWrite s = s.raise 0x16 (BitVec.ofNat 64 n) 0) ∧
    (0x1000 ≤ v.toNat / 2 ^ 10 % 2 ^ 20 → s.BecomesCore (exec .nfCbaseWrite s) { k with nfOff := v.extractLsb' 10 20 }) ∧
    (v.toNat / 2 ^ 10 % 2 ^ 20 < 0x1000 → exec .nfCbaseWrite s = s.raise 0x08 v 1)

/-- R489, R487, R485, R139: FLT.BASE places the fault ring and empties it; 0 written to LINK.STAT of a link that is down
starts its retrain of 100 µs, and any other write of it does nothing; a write of a register of scope die by the slot. -/
def Obligations.DieRegisterWrites : Prop :=
  ∀ (s : State),
    let x := s.myDie
    let v := s.cur.val
    s.BecomesDie (exec .fltBaseWrite s) { x with
      fltBase := v.extractLsb' 12 44, fltLog := v.setWidth 5, fltHead := 0, fltTail := 0, fltLost := 0
      rdy := x.rdy ||| 0x1C0000 } ∧
    (let l := vget x.links s.cur.id {}
     let due := s.clk + 100 * x.pwrMhz.toNat
     (s.cur.id < 6 → l.st = 2 → l.retrain = none →
       ∃ t, exec .linkRetrainRequest s = .next t ∧
         t.myDie = { x with links := x.links.setIfInBounds s.cur.id { l with retrain := some s.clk } } ∧
         (∀ d, d ≠ s.cur.die → t.die d = s.die d) ∧
         t = { s with dies := t.dies, agenda := s.agenda ++
           [(due, { who := { die := s.cur.die, n := s.cur.id, id := s.clk }, op := .linkRetrainTimeout })] }) ∧
     ((l.st ≠ 2 ∨ l.retrain.isSome) → exec .linkRetrainRequest s = .next s)) ∧
    (s.cur.id = 0x302 → s.BecomesDie (exec .registerWrite s) { x with preDl := v.setWidth 24 }) ∧
    (s.cur.id = 0x200 → s.BecomesDie (exec .registerWrite s) { x with dispDev := v.setWidth 4 }) ∧
    (s.cur.id = 0x242 → s.BecomesDie (exec .registerWrite s) { x with grErr := x.grErr &&& ~~~(v.setWidth 8) }) ∧
    (s.cur.id < 0x200 → s.cur.n = 1 → exec .registerWrite s = .next s)

/-! ### Threads (R14–R16, R38, R140–R148) -/

/-- R140, R141, R15, R38: NOP, YIELD, IDLE and PARK, and the steps that end their waits: IDLE_EXPIRE, PARKED_SLOT_WAKE
and BLOCKED_SLOT_WAKE. YIELD, IDLE and PARK are pre-emption points, at which a slot that was asked to stop stops; PARK of an
address that is no future raises the access fault. -/
def Obligations.YieldingWords : Prop :=
  ∀ (s : State) (a : BitVec 6), s.cur.slot < 4 →
    let x := s.me
    let on := x.passed
    let yielded := if x.stopAsked then { on with st := .ready, stopped := true, stopAsked := false } else { on with st := .ready }
    let waits := fun (y : Slot) => if x.stopAsked then { y with stopped := true, stopAsked := false } else y
    let resumed := { x with st := .ready, wait := .none, pc := alignPc (x.pc + 4), xl := []
                            arrived := if x.arrivedAt = x.pc.toNat then none else x.arrived }
    s.Becomes (exec .nop s) on ∧
    s.Becomes (exec .yield s) yielded ∧
    (s.rx a = 0 → s.Becomes (exec (.idle a) s) yielded) ∧
    (s.rx a ≠ 0 → s.Becomes (exec (.idle a) s)
      (waits { x with st := .blocked, wait := .idle (s.clk + min (s.rx a).toNat (2 ^ 32 - 1)) })) ∧
    (∀ n, x.st = .blocked → x.wait = .idle n → n ≤ s.clk → s.Becomes (exec .idleExpire s) resumed) ∧
    (∀ o, s.rx a = BitVec.ofNat 64 (0xFFFF040000000000 + o) → o % 16 = 0 → 0x400000 ≤ o → o + 16 ≤ 2 ^ 30 →
      s.granted s.cur.die s.cur.core o = true →
      let full := s.peek (.sync s.cur.die (o + 8)) 1 % 2 = 1
      (full → s.Becomes (exec (.park a) s) yielded) ∧
      (¬ full → s.Becomes (exec (.park a) s) (waits { x with st := .parked, wait := .park o }))) ∧
    (∀ o, x.st = .parked → x.wait = .park o → s.peek (.sync s.cur.die (o + 8)) 1 % 2 = 1 →
      s.Becomes (exec .parkedSlotWake s) resumed) ∧
    ((s.rx a).toNat / 2 ^ 40 ≠ 0xFFFF04 → exec (.park a) s = s.raise 0x08 (s.rx a) 0) ∧
    ((s.rx a).toNat % 16 ≠ 0 → exec (.park a) s = s.raise 0x08 (s.rx a) 0) ∧
    (x.st = .blocked → x.wait = .word → s.Becomes (exec .blockedSlotWake s) { x with st := .ready, wait := .none })

/-- R16, R24: a core without an ACTIVE slot switches to the next READY slot in increasing number, of those that no save has
stopped: the one that was ACTIVE last resumes at once with its latches; any other issues from the next clk on, with every latch
invalid. With an ACTIVE slot, or without such a READY one, nothing changes. -/
def Obligations.SlotSwitching : Prop :=
  ∀ (s : State) (i : Nat),
    let k := s.here
    let ready := fun (j : Nat) => (k.slot ((k.last + 1 + j) % 4)).st = .ready ∧ (k.slot ((k.last + 1 + j) % 4)).stopped = false
    let n := (k.last + 1 + i) % 4
    let slots := k.slots.setIfInBounds n { k.slot n with st := .active }
    (k.last < 4 → (∀ j, j < 4 → (k.slot j).st ≠ .active) → i < 4 → ready i → (∀ j, j < i → ¬ ready j) →
      (n = k.last → s.BecomesCore (exec .slotSwitch s) { k with slots := slots }) ∧
      (n ≠ k.last → s.BecomesCore (exec .slotSwitch s)
        { k with slots := slots, last := n, switching := some (n, s.clk + 1), sw := k.sw + 1, latch := Vector.replicate 8 none })) ∧
    (((∃ j, j < 4 ∧ (k.slot j).st = .active) ∨ ∀ j, j < 4 → ¬ ready j) → s.BecomesCore (exec .slotSwitch s) k)

/-- R142, R145: EXIT empties the landing record, whose entries perform at once, and frees the slot once its landings and loads
have ended, at once or by EXIT_FINISH: the loop stack is empty and the thread is in no group; until then the slot is BLOCKED.
With an empty record no byte of memory changes. -/
def Obligations.ThreadEnds : Prop :=
  ∀ (s : State), s.cur.slot < 4 →
    ((s.me.lands ≠ [] ∨ s.me.pend ≠ []) →
      ∃ t, exec .exit s = .next t ∧ t.me = { s.me with lrec := [], armed := false, st := .blocked, wait := .exit } ∧
        s.OthersAlone t ∧ (s.me.lrec = [] → s.OnlyMe t)) ∧
    (∀ o, o = exec .exit s ∨ o = exec .exitFinish s ∧ s.me.wait = .exit → s.me.lands = [] → s.me.pend = [] →
      ∃ t, o = .next t ∧ t.me = { s.me with st := .free, wait := .none, lsDepth := 0, lrec := [], armed := false, lateX := [], lateRow := [] } ∧
        s.OthersAlone t ∧ (s.me.lrec = [] → s.SameMemory t) ∧
        ∀ g gr, t.myDie.groups.find g = some gr → ∀ m ∈ gr.members, m.2 ≠ s.cur.core * 4 + s.cur.slot + 1) ∧
    (∀ l, s.me.lrec = [l] → l.kind = .row → l.due ≤ 12 →
      ∃ t, exec .exit s = .next t ∧ ∀ i, i < 128 →
        let b := Loc.cistern s.cur.die s.cur.core (s.here.part.rowByte l.row + i)
        t.peek b 1 = if l.bytes.getLsbD i then rowNat l.data i 1 else s.peek b 1)

/-- R144, R145, R146: JOIN creates a group of which the thread is rank 0, or joins one with the lowest free rank; LEAVE
leaves and answers the members that remain; GRPQ reports. -/
def Obligations.Groups : Prop :=
  ∀ (s : State) (d a : BitVec 6) (q : BitVec 10), s.cur.slot < 4 →
    let me := s.cur.core * 4 + s.cur.slot + 1
    let gs := s.myDie.groups
    let does := fun (o : Out) (v : Word) (gs' : Tab Group) =>
      ∃ t, o = .next t ∧ s.me.Writes t.me s.clk d v 1 ∧ s.OthersAlone t ∧ s.SameMemory t ∧ t.myDie.groups = gs'
    (s.myDie.groupsOf me < 8 → gs.entries.length < 4095 →
      ∃ g, 1 ≤ g ∧ g ≤ 4095 ∧ gs.find g = none ∧
        does (exec (.join d 0 1) s) (BitVec.ofNat 64 g) (gs.set g { members := [(0, me)] })) ∧
    ((8 ≤ s.myDie.groupsOf me ∨ 4095 ≤ gs.entries.length) → does (exec (.join d 0 1) s) 0 gs) ∧
    (a ≠ 0 → exec (.join d a 1) s = s.raise 0x01 ((encode (.join d a 1)).setWidth 64) 0) ∧
    (gs.find (s.rx a).toNat = none → does (exec (.join d a 0) s) 0 gs ∧ does (exec (.leave d a) s) 0 gs ∧
      does (exec (.grpq d a q) s) 0 gs) ∧
    (∀ gr, gs.find (s.rx a).toNat = some gr →
      ((∃ m ∈ gr.members, m.2 = me) → does (exec (.join d a 0) s) (s.rx a) gs) ∧
      ((∀ m ∈ gr.members, m.2 ≠ me) → s.myDie.groupsOf me < 8 →
        ∃ r, (∀ m ∈ gr.members, m.1 ≠ r) ∧ (∀ r', r' < r → ∃ m ∈ gr.members, m.1 = r') ∧
          does (exec (.join d a 0) s) (s.rx a) (gs.set (s.rx a).toNat { members := assocSet gr.members r me })) ∧
      ((∀ m ∈ gr.members, m.2 ≠ me) → 8 ≤ s.myDie.groupsOf me → does (exec (.join d a 0) s) 0 gs) ∧
      (let left := gr.members.filter fun m => m.2 != me
       (left ≠ [] → does (exec (.leave d a) s) (BitVec.ofNat 64 left.length) (gs.set (s.rx a).toNat { members := left })) ∧
       (left = [] → does (exec (.leave d a) s) 0 (gs.erase (s.rx a).toNat))) ∧
      does (exec (.grpq d a 0) s) (BitVec.ofNat 64 gr.members.length) gs ∧
      ((∀ m ∈ gr.members, m.2 ≠ me) → does (exec (.grpq d a 1) s) (BitVec.allOnes 64) gs) ∧
      (∀ m, gr.members.find? (fun m => m.2 == me) = some m → does (exec (.grpq d a 1) s) (BitVec.ofNat 64 m.1) gs) ∧
      (∃ cs : List Nat, cs.Nodup ∧ (∀ c, c ∈ cs ↔ ∃ m ∈ gr.members, (m.2 - 1) / 4 = c) ∧
        does (exec (.grpq d a 2) s) (BitVec.ofNat 64 cs.length) gs))

/-- R147, R148: THID's four queries, and TLBINV, which removes exactly the translations that its query names from the TLB, and
from those that finished walks have given to the slots of the core; nothing else changes but the program counter. -/
def Obligations.ThreadInfoAndTlb : Prop :=
  ∀ (s : State) (d a : BitVec 6), s.cur.slot < 4 →
    let c := s.cur.core
    s.WritesX (exec (.thid d 0) s) d (BitVec.ofNat 64 (c * 4 + s.cur.slot + 1)) 1 ∧
    s.WritesX (exec (.thid d 1) s) d (BitVec.ofNat 64 (s.cur.die % s.dims.1 + s.cur.die / s.dims.1 % s.dims.2.1 * 2 ^ 8 +
      s.cur.die / (s.dims.1 * s.dims.2.1) * 2 ^ 16 + s.cur.die / (s.dims.1 * s.dims.2.1) % 2 * 2 ^ 24)) 1 ∧
    s.WritesX (exec (.thid d 2) s) d (if c = 768 then 0x400 else BitVec.ofNat 64 (c / 192 * 2 ^ 8 + c % 192)) 1 ∧
    s.WritesX (exec (.thid d 3) s) d (s.here.ctx.asid.setWidth 64) 1 ∧
    (s.me.priv = true → ∀ (e : BitVec 10 × (Page → Bool)), e ∈ ([
        (0, fun p => p.asid != (s.rx a).toNat % 4096),
        (1, fun p => !(p.asid == s.here.ctx.asid.toNat && p.va ≤ (s.rx a).toNat && (s.rx a).toNat < p.va + p.size)),
        (2, fun _ => false)] : List (BitVec 10 × (Page → Bool))) →
      let kept := fun (x : Slot) => { x with xl := x.xl.filter fun y => (y.page.map e.2).getD true }
      ∃ t, exec (.tlbinv a e.1) s = .next t ∧ t.me = (kept s.me).passed ∧
        t.here = { s.here with tlb := s.here.tlb.filter e.2, slots := t.here.slots } ∧ s.OnlyCores t ∧ s.OtherCoresAlone t ∧
        ∀ i, i < 4 → i ≠ s.cur.slot → t.here.slot i = kept (s.here.slot i))

/-- R143, R106, R22, R114, R134: SPAWN of a readable, aligned record. It raises the misaligned-PC trap for an entry PC that is
no multiple of 4; answers 0 when no core is picked; and else starts a thread on a FREE slot of the core that the placement
picks: READY, in user mode, at the record's entry PC, with its arguments and the thread's own id in x1 to x5, every other
register x 0, every view disabled and the loop stack empty, while TRAP.SCR and the entries of the loop stack keep what the
slot held; and answers that id. Every other slot is as before, but for the issuing one, which goes on. -/
def Obligations.SpawnStartsThread : Prop :=
  ∀ (s : State) (d a : BitVec 6) (near : BitVec 1) (v : Nat), s.cur.slot < 4 → s.me.st = .active →
    s.blockRead (s.rx a) 64 64 = .ok v → v < 2 ^ 512 →
    (v % 4 ≠ 0 → exec (.spawn d a near) s = (s.captureRead (s.rx a) 64 64).raise 0x02 (BitVec.ofNat 64 (v % 2 ^ 64)) 0) ∧
    (v % 4 = 0 → s.myDie.pick s.myDie.spawnPtr (s.spawnable (near == 1)) = none →
      ∃ t, exec (.spawn d a near) s = .next t ∧ s.Answers t (.x d.toNat) [0] .variableLoadLanding ∧ s.OthersAlone t) ∧
    (∀ c, v % 4 = 0 → s.myDie.pick s.myDie.spawnPtr (s.spawnable (near == 1)) = some c →
      ∃ t i, exec (.spawn d a near) s = .next t ∧ i < 4 ∧ (s.slot s.cur.die c i).st = .free ∧
        s.Answers t (.x d.toNat) [BitVec.ofNat 64 (c * 4 + i + 1)] .variableLoadLanding ∧
        let x := s.slot s.cur.die c i
        let y := t.slot s.cur.die c i
        y.st = .ready ∧ y.wait = .none ∧ y.stopped = false ∧ y.priv = false ∧ y.pc = BitVec.ofNat 64 v ∧
        y.vw = Vector.replicate 8 0 ∧ y.lsDepth = 0 ∧ y.lsIdx = x.lsIdx ∧ y.lsTop = x.lsTop ∧ y.lsEnd = x.lsEnd ∧
        y.trapScr = x.trapScr ∧ y.task = none ∧ y.lands = x.lands ∧ y.pend = x.pend ∧
        y.rx 1 = BitVec.ofNat 64 (v / 2 ^ 64) ∧ y.rx 2 = BitVec.ofNat 64 (v / 2 ^ 128) ∧ y.rx 3 = BitVec.ofNat 64 (v / 2 ^ 192) ∧
        y.rx 4 = BitVec.ofNat 64 (v / 2 ^ 256) ∧ y.rx 5 = BitVec.ofNat 64 (c * 4 + i + 1) ∧
        (∀ r : BitVec 6, 5 < r.toNat → y.rx r = 0) ∧ (∀ r k, y.locked k r = false) ∧
        (∀ d' c' i', ¬(d' = s.cur.die ∧ c' = c ∧ i' = i) → ¬(d' = s.cur.die ∧ c' = s.cur.core ∧ i' = s.cur.slot) →
          t.slot d' c' i' = s.slot d' c' i'))

/-- R448, R342, R412: CTXSW of a readable descriptor in privileged mode, with the lines of host memory that the read takes into
a capture (u). While a switch of its core is in progress it answers 1 and starts nothing; for a descriptor that is not valid it
answers 0 and ends at once with code 1; and else it answers 0 and starts the switch that the descriptor describes, on that core
alone. A save of a context with a window in error raises the remote error instead (the model's deduction, log 90). -/
def Obligations.SwitchStarts : Prop :=
  ∀ (s : State) (d a : BitVec 6) (v : Nat), s.cur.slot < 4 → s.me.priv = true →
    s.blockRead (s.rx a) 64 64 = .ok v →
    let u := s.captureRead (s.rx a) 64 64
    let f := fun (b n : Nat) => v / 2 ^ (8 * b) % 2 ^ (8 * n)
    let c := f 2 2
    let running := c < 768 ∧ (s.core s.cur.die c).switch.isSome
    (running → ∃ t, exec (.ctxsw d a) s = .next t ∧ u.Answers t (.x d.toNat) [1] .variableLoadLanding ∧ u.OnlySlotsAndSteps t ∧
      u.OthersAlone t ∧ t.now = u.now) ∧
    (¬ running → switchValid v = false →
      ∃ t, exec (.ctxsw d a) s = .next t ∧ u.Answers t (.x d.toNat) [0] .variableLoadLanding ∧ u.OnlySlotsAndSteps t ∧
        u.OthersAlone t ∧
        t.now = u.now ++ [{ who := { die := s.cur.die, id := f 4 4, n := 1, val := BitVec.ofNat 64 (f 24 8) }, op := .switchComplete }]) ∧
    (¬ running → switchValid v = true → u.saveError s.cur.die c v = none →
      ∃ t w, exec (.ctxsw d a) s = .next t ∧ u.Answers t (.x d.toNat) [0] .variableLoadLanding ∧
        (t.core s.cur.die c).switch = some w ∧ w.op = f 0 1 ∧ w.cph = f 4 4 ∧ w.save = f 8 8 ∧ w.inp = f 16 8 ∧ w.stat = f 24 8 ∧
        w.start = s.clk ∧ w.startNs = s.timeNs s.cur.die ∧ u.OthersAlone t ∧ u.SameMemory t ∧
        (∀ c', c' ≠ c → (t.core s.cur.die c').switch = (s.core s.cur.die c').switch) ∧
        ∃ e : Ev, (e ∈ t.now ∨ ∃ due, s.clk < due ∧ (due, e) ∈ t.agenda) ∧ e.who.die = s.cur.die ∧ e.who.core = c ∧
          e.op = (match w.op with | 0 => .contextLaunch | 1 => .contextSave | 2 => .contextSaveInstall | 3 => .contextRestore | _ => .contextEnd)) ∧
    (∀ w, ¬ running → switchValid v = true → u.saveError s.cur.die c v = some w →
      exec (.ctxsw d a) s = u.raise 0x18 (BitVec.ofNat 64 w) (BitVec.ofNat 64 ((s.core s.cur.die c).win w).reason))

/-! ### The sync engine (class 0x4) -/

/-- R260, R261, R259: an atomic at an aligned operand of this system reads the old value, writes the new one there, leaves
every other byte, goes on, and has the old value pending for xd; an address of the handle area, or a misaligned one, traps
with no effect. -/
def Obligations.Atomics : Prop :=
  ∀ (s : State) (d a b : BitVec 6) (g : BitVec 5), s.cur.slot < 4 →
    let va := s.rx a
    let y := s.rx b
    (∀ l, s.syncPlace va 8 8 .word = .ok (l, none) → s.syncClear l (some g) → s.bad l 8 = false →
      let old := BitVec.ofNat 64 (s.peek l 8)
      ∀ e ∈ ([(Instr.amadd, old + y), (Instr.ammin, if y.slt old then y else old), (Instr.ammax, if old.slt y then y else old),
          (Instr.amminn, if y.ult old then y else old), (Instr.ammaxn, if old.ult y then y else old), (Instr.amand, old &&& y),
          (Instr.amor, old ||| y), (Instr.amxor, old ^^^ y), (Instr.amxch, y), (Instr.amcas, if old = s.rx d then y else old),
          (Instr.amincb, if old.ult y then old + 1 else old)] :
          List ((BitVec 6 → BitVec 6 → BitVec 6 → BitVec 5 → Instr) × Word)),
        ∃ t, exec (e.1 d a b g) s = .next t ∧ s.Answers t (.x d.toNat) [old] .syncResultLands ∧ s.Stores t l 8 e.2.toNat) ∧
    (∀ l, s.syncPlace va 4 4 .word = .ok (l, none) → s.syncClear l (some g) → s.bad l 4 = false →
      let old := s.peek l 4
      ∃ t, exec (.amfadd d a b g) s = .next t ∧ s.Answers t (.x d.toNat) [BitVec.ofNat 64 old] .syncResultLands ∧
        s.Stores t l 4 (fp32.encode (fadd fp32 .rne (fp32.decode old) (fp32.decode (y.toNat % 2 ^ 32))))) ∧
    (∀ l, s.syncPlace va 8 8 .word = .ok (l, none) → s.syncClear l (some g) → s.bad l 8 = true →
      ∃ t p, exec (.amadd d a b g) s = .next t ∧ p ∈ t.me.pend ∧ p.dest = .x d.toNat ∧ p.vals = [0xFFF8000000000001] ∧
        p.late = some { cause := 0x09, pc := s.me.pc, val := va, info := 1 }) ∧
    (∀ (o : Nat) (l : Loc), s.rx b = BitVec.ofNat 64 (0xFFFF000000000000 + o) → o % 128 = 0 → o < 2 ^ 20 →
      s.here.held o 128 false = false → s.here.pendingBytes o (o + 128) = false → s.here.lateAt o (o + 128) = none →
      (s.me.dbgp = true → s.here.pendingWord o (o + 128) = none) →
      s.here.cistern.poisoned 8 o 128 = false →
      s.syncPlace va 128 128 .word = .ok (l, none) → s.syncClear l (some g) → s.bad l 128 = false →
      ∃ t, exec (.amred d a b g) s = .next t ∧ s.Answers t (.x d.toNat) [0] .syncResultLands ∧
        (∀ i, i < 32 → t.peek (l.plus (4 * i)) 4 = if (s.rx d).getLsbD i then
          fp32.encode (fadd fp32 .rne (fp32.decode (s.peek (l.plus (4 * i)) 4))
            (fp32.decode (s.peek (.cistern s.cur.die s.cur.core (o + 4 * i)) 4))) % 2 ^ 32
          else s.peek (l.plus (4 * i)) 4) ∧
        (∀ m, (∀ i, i < 128 → m ≠ l.plus i) → t.peek m 1 = s.peek m 1)) ∧
    (∀ o, va = BitVec.ofNat 64 (0xFFFF040000000000 + o) → o < 0x400000 → o % 8 = 0 →
      exec (.amadd d a b g) s = s.raise 0x08 va 1) ∧
    (va.toNat % 8 ≠ 0 → exec (.amadd d a b g) s = s.raise 0x06 va 8)

/-- R264, R267, R268, R269: LDA and STRL at a sync variable, and the future operations on a full and on an empty future in a
correctable line with no queue. LDA answers with the word; STRL stores it at once, and goes on with nothing else changed but
the marks of the slot's buffered entries, which its release has passed (R298); FTSET, FTSETW, FTGET and FTTRY answer at once,
with the future filled or emptied, or, where they wait, block their slot and join the queue. -/
def Obligations.FuturesAndAcquires : Prop :=
  ∀ (s : State) (d a b : BitVec 6) (g : BitVec 5) (o : Nat), s.cur.slot < 4 → s.idUnused →
    s.rx a = BitVec.ofNat 64 (0xFFFF040000000000 + o) → o % 16 = 0 → 0x400000 ≤ o → o + 16 ≤ 2 ^ 30 →
    s.granted s.cur.die s.cur.core o = true →
    let l := Loc.sync s.cur.die o
    s.bad (.sync s.cur.die (o / 64 * 64)) 64 = false → s.syncClear l (some g) → s.myDie.waiters = [] →
    let full := s.peek (l.plus 8) 1 % 2 = 1
    let v := BitVec.ofNat 64 (s.peek l 8)
    (∃ t, exec (.lda d a g) s = .next t ∧ s.Answers t (.x d.toNat) [v] .syncResultLands ∧ s.SameMemory t) ∧
    (s.classWaits 0 = false →
      ∃ t, exec (.strl a b g) s = .next t ∧ s.Stores t l 8 (s.rx b).toNat ∧ s.OthersAlone t ∧ t.me = s.me.passed ∧
        s.OtherCoresAlone t ∧ t.here = { s.here with slots := t.here.slots, comb := t.here.comb } ∧
        t.here.comb.map (fun e => { e with fenced := [] }) = s.here.comb.map fun e => { e with fenced := [] }) ∧
    (full →
      (∃ t, exec (.ftset d a b g) s = .next t ∧ s.Answers t (.x d.toNat) [1] .syncResultLands ∧ s.SameMemory t) ∧
      (∃ t, exec (.ftsetw d a b g) s = .next t ∧ s.Waits t (.x d.toNat) ∧ s.SameMemory t ∧
        t.myDie.waiters.map (·.req.id) = [s.ids]) ∧
      (∃ t, exec (.ftget d a g) s = .next t ∧ s.Answers t (.x d.toNat) [v] .syncResultLands ∧ s.Stores t (l.plus 8) 1 0) ∧
      (∃ t, exec (.fttry d a b g) s = .next t ∧ s.Answers t (.x2 d.toNat b.toNat) [v, 0] .syncResultLands ∧
        s.Stores t (l.plus 8) 1 0)) ∧
    (¬ full →
      (∀ f ∈ ([Instr.ftset, Instr.ftsetw] : List (BitVec 6 → BitVec 6 → BitVec 6 → BitVec 5 → Instr)),
        ∃ t, exec (f d a b g) s = .next t ∧ s.Answers t (.x d.toNat) [0] .syncResultLands ∧
          s.Stores t l 9 ((s.rx b).toNat + 2 ^ 64)) ∧
      (∃ t, exec (.ftget d a g) s = .next t ∧ s.Waits t (.x d.toNat) ∧ s.SameMemory t ∧
        t.myDie.waiters.map (·.req.id) = [s.ids]) ∧
      (∃ t, exec (.fttry d a b g) s = .next t ∧ s.Answers t (.x2 d.toNat b.toNat) [0, 2] .syncResultLands ∧ s.SameMemory t))

/-- R265, R460: WAITA answers 0 at once when the word differs from b, and else waits; the steps that end the wait: a wake
finds the word changed, the time limit answers 2, a poll looks again. -/
def Obligations.AddressWaits : Prop :=
  ∀ (s : State), s.cur.slot < 4 →
    (∀ (d a b : BitVec 6) (g : BitVec 5) (o : Nat), s.rx a = BitVec.ofNat 64 (0xFFFF040000000000 + o) → o % 8 = 0 → o + 8 ≤ 2 ^ 30 →
      s.granted s.cur.die s.cur.core o = true → s.idUnused →
      let l := Loc.sync s.cur.die o
      s.bad l 8 = false → s.syncClear l (some g) →
      (BitVec.ofNat 64 (s.peek l 8) ≠ s.rx b →
        ∃ t, exec (.waita d a b g) s = .next t ∧ s.Answers t (.x d.toNat) [0] .syncResultLands ∧ s.SameMemory t) ∧
      (BitVec.ofNat 64 (s.peek l 8) = s.rx b →
        ∃ t, exec (.waita d a b g) s = .next t ∧ s.Waits t (.x d.toNat) ∧ s.SameMemory t ∧
          (∃ w ∈ t.myDie.waiters, w.req.id = s.ids ∧ w.req.loc = l ∧ w.req.b = s.rx b) ∧
          (s.rx d ≠ 0 → (s.clk + (s.rx d).toNat, { who := { s.cur with id := s.ids }, op := .waitaTimeout }) ∈ t.agenda))) ∧
    (∀ (home : Nat) (r : SyncReq) (d o : Nat), s.waitaOf s.cur.id = some (home, r) → r.win = none → r.loc = .sync d o → r.slot < 4 →
      s.bad r.loc 8 = false →
      (∃ d a b g, r.op = .waita d a b g) →
      let answered := fun (t : State) (v : Word) =>
        (∀ p ∈ (s.slot r.die r.core r.slot).pend, p.id = r.id →
          { p with answered := true, vals := [v], late := none } ∈ (t.slot r.die r.core r.slot).pend) ∧
        (t.die home).waiters = (s.die home).waiters.filter (fun w => w.req.id != r.id) ∧ s.SameMemory t
      let changed := BitVec.ofNat 64 (s.peek r.loc 8) ≠ r.b
      (∃ t, exec .waitaTimeout s = .next t ∧ answered t 2) ∧
      (changed → ∃ t, exec .waitaWake s = .next t ∧ answered t 0) ∧
      (¬ changed → exec .waitaWake s = .next s) ∧
      (changed → ∃ t, exec .waitaPoll s = .next t ∧ answered t 0) ∧
      (¬ changed → exec .waitaPoll s = .next { s with agenda := s.agenda ++ [(s.clk + 256, { who := s.cur, op := .waitaPoll })] }))

/-- R270 to R277: the phaser words at a valid phaser line of the own die with no waiters: creation, registration, byte
counts, arrivals that leave the phase open or complete it, and waits. -/
def Obligations.PhaserWords : Prop :=
  ∀ (s : State) (d a b : BitVec 6) (g : BitVec 5) (o : Nat), s.cur.slot < 4 → s.idUnused → s.me.arrived = none →
    s.rx a = BitVec.ofNat 64 (0xFFFF040000000000 + o) → o % 64 = 0 → 64 ≤ o → o < 0x400000 →
    s.granted s.cur.die s.cur.core o = true →
    let l := Loc.sync s.cur.die o
    let p := s.phaser l
    let y := (s.rx b).toNat
    s.bad l 64 = false → s.syncClear l (some g) → s.myDie.waiters = [] →
    (p.valid = false → y < 4 →
      ∃ t, exec (.phnew d a b) s = .next t ∧ s.Answers t (.x d.toNat) [0] .syncResultLands ∧ (t.phaser l).valid = true ∧
        (t.phaser l).ph = 0 ∧ (t.phaser l).ns = (if y = 1 then 1 else 0) ∧ (t.phaser l).nw = (if y = 2 then 1 else 0) ∧
        (t.phaser l).nsw = if y = 3 then 1 else 0) ∧
    (p.valid = true → 0 < (p.ns : Int) + p.nw + p.nsw + p.ds + p.dw + p.dsw → y < 4 →
      ∃ t, exec (.phnew d a b) s = .next t ∧ s.Answers t (.x d.toNat) [1] .syncResultLands ∧ s.SameMemory t) ∧
    (p.valid = true → y = 1 → p.ds < 32767 → (p.ns : Int) + p.ds < 65535 → 0 ≤ (p.ns : Int) + p.ds →
      ∃ t, exec (.phreg d a b) s = .next t ∧ (t.phaser l).ds = p.ds + 1 ∧
        s.Answers t (.x d.toNat) [BitVec.ofNat 64 ((p.ph + 1) % 2 ^ 32)] .syncResultLands) ∧
    (p.valid = true → y = 1 → -32768 < p.ds → 0 < (p.ns : Int) + p.ds → (p.ns : Int) + p.ds ≤ 65535 →
      ∃ t, exec (.phdrop d a b) s = .next t ∧ (t.phaser l).ds = p.ds - 1 ∧
        s.Answers t (.x d.toNat) [BitVec.ofNat 64 ((p.ph + 1) % 2 ^ 32)] .syncResultLands) ∧
    (p.valid = true → p.arr = 0 → p.byt = 0 → y < 2 ^ 40 →
      ∃ t, exec (.phbyt d a b) s = .next t ∧ (t.phaser l).exp = y ∧
        s.Answers t (.x d.toNat) [BitVec.ofNat 64 p.ph] .syncResultLands) ∧
    (p.valid = true →
      let n := y % 2 ^ 40
      let arr := (p.arr + 1) % 2 ^ 16
      let byt := (p.byt + n) % 2 ^ 64
      let closes := p.ns + p.nsw ≤ arr ∧ p.exp ≤ byt ∧ 0 < p.ns + p.nsw + p.exp
      (¬ closes →
        (∃ t, exec (.pharv d a b g) s = .next t ∧ s.Answers t (.x d.toNat) [BitVec.ofNat 64 p.ph] .syncResultLands ∧
          (t.phaser l).ph = p.ph ∧ (t.phaser l).arr = arr ∧ (t.phaser l).byt = byt) ∧
        (∃ t, exec (.pharw d a b g) s = .next t ∧ s.Waits t (.x d.toNat) ∧ t.me.arrived = some p.ph ∧
          (t.phaser l).arr = arr ∧ (t.phaser l).waiters = 1)) ∧
      (closes → ∀ e ∈ ([(Instr.pharv, BitVec.ofNat 64 p.ph), (Instr.pharw, 0)] :
          List ((BitVec 6 → BitVec 6 → BitVec 6 → BitVec 5 → Instr) × Word)),
        ∃ t, exec (e.1 d a b g) s = .next t ∧ s.Answers t (.x d.toNat) [e.2] .syncResultLands ∧
          (t.phaser l).ph = (p.ph + 1) % 2 ^ 32 ∧ (t.phaser l).arr = arr - (p.ns + p.nsw) ∧
          (t.phaser l).byt = if 0 < p.exp then byt - p.exp else 0)) ∧
    (p.valid = true → phasePassed p.ph (y % 2 ^ 32) = true →
      ∃ t, exec (.phwait d a b g) s = .next t ∧ s.SameMemory t ∧
        s.Answers t (.x d.toNat) [if y % 2 ^ 32 = p.errPh then BitVec.ofNat 64 p.lcode else 0] .syncResultLands) ∧
    (p.valid = true → phasePassed p.ph (y % 2 ^ 32) = false →
      ∃ t, exec (.phwait d a b g) s = .next t ∧ s.Waits t (.x d.toNat) ∧ (t.phaser l).waiters = 1) ∧
    (p.valid = false →
      (∃ t, exec (.pharv d a b g) s = .next t ∧ s.SameMemory t ∧ s.Answers t (.x d.toNat) [0xFFFFFFFF00000004] .syncResultLands) ∧
      (∀ f ∈ ([Instr.phwait, Instr.pharw] : List (BitVec 6 → BitVec 6 → BitVec 6 → BitVec 5 → Instr)),
        ∃ t, exec (f d a b g) s = .next t ∧ s.SameMemory t ∧ s.Answers t (.x d.toNat) [4] .syncResultLands))

/-- R271, R273, R270, R255, R263: arrivals of engines at a phaser line of a die with no waiters: bytes, which may complete the
open phase, and errors, which complete it at once; at a line that is not valid, or has an uncorrectable error, they leave the
line as it is. -/
def Obligations.EngineArrivals : Prop :=
  ∀ (s : State), s.myDie.rdy.getLsbD 19 = true → s.myDie.waiters = [] → s.cur.n = 0 →
    let l := Loc.sync s.cur.die s.cur.id
    let p := s.phaser l
    let byt := (p.byt + s.cur.val.toNat) % 2 ^ 64
    let closes := p.ns + p.nsw ≤ p.arr ∧ p.exp ≤ byt
    (s.bad l 64 = true → (∃ t, exec .engineArrival s = .next t ∧ t.phaser l = p) ∧
      ∃ t, exec .phaserErrorArrival s = .next t ∧ t.phaser l = p) ∧
    (s.bad l 64 = false →
    (p.valid = true → ¬ closes → ∃ t, exec .engineArrival s = .next t ∧ (t.phaser l).ph = p.ph ∧ (t.phaser l).arr = p.arr ∧
      (t.phaser l).byt = byt) ∧
    (p.valid = true → closes → ∃ t, exec .engineArrival s = .next t ∧ (t.phaser l).ph = (p.ph + 1) % 2 ^ 32 ∧
      (t.phaser l).arr = p.arr - (p.ns + p.nsw) ∧ (t.phaser l).byt = if 0 < p.exp then byt - p.exp else 0) ∧
    (p.valid = false → (∃ t, exec .engineArrival s = .next t ∧ t.phaser l = p) ∧
      ∃ t, exec .phaserErrorArrival s = .next t ∧ t.phaser l = p) ∧
    (p.valid = true → ∃ t, exec .phaserErrorArrival s = .next t ∧ (t.phaser l).ph = (p.ph + 1) % 2 ^ 32 ∧
      (t.phaser l).errPh = p.ph ∧ (t.phaser l).lcode = s.cur.val.toNat % 2 ^ 8 ∧ (t.phaser l).arr = 0 ∧ (t.phaser l).byt = 0))

/-- R278, R279, R280, R281, R282, R258: BRBASE removes a binding, or binds valid correctable phasers of one phase, and answers;
BRADV advances it; a relative phaser word without a binding answers failure form 4; BRCMP counts an arrival, completes the
barrier and answers, waits, or answers a failure form; RCINC adds to a counter; RCSNAP writes the counters of an array as 256
bytes at correctable places of this system and clears them. -/
def Obligations.BarriersAndCounters : Prop :=
  ∀ (s : State) (d a b : BitVec 6) (g : BitVec 5), s.cur.slot < 4 →
    let die := s.cur.die
    let x := s.rx a
    let y := (s.rx b).toNat
    let gives := fun (o : Out) (bar : Binding) (v : Word) =>
      ∃ t, o = .next t ∧ s.Answers t (.x d.toNat) [v] .syncResultLands ∧ t.me.bar = bar ∧ s.SameMemory t
    (s.syncClear (.sync die 0) none → y = 0 → gives (exec (.brbase d a b) s) {} 0) ∧
    (∀ o, s.syncClear (.sync die 0) none → x = BitVec.ofNat 64 (0xFFFF040000000000 + o) → 1 ≤ y → y ≤ 8 → o % 64 = 0 → 64 ≤ o →
      o + 64 * y ≤ 0x400000 → s.granted die s.cur.core o = true → s.granted die s.cur.core (o + 64 * y - 1) = true →
      let r0 := (s.phaser (.sync die o)).ph
      (∀ i, i < y → (s.phaser (.sync die (o + i * 64))).valid = true ∧ (s.phaser (.sync die (o + i * 64))).ph = r0 ∧
        s.bad (.sync die (o + i * 64)) 64 = false) →
      gives (exec (.brbase d a b) s) { base := x, d := y, iter := 0, r0 := r0 } (BitVec.ofNat 64 r0)) ∧
    (s.me.bar.d = 0 → gives (exec (.bradv d) s) s.me.bar 0xFFFFFFFF00000004) ∧
    (s.me.bar.d ≠ 0 →
      gives (exec (.bradv d) s) { s.me.bar with iter := (s.me.bar.iter + 1) % 2 ^ 32 } (BitVec.ofNat 64 ((s.me.bar.iter + 1) % 2 ^ 32))) ∧
    (s.me.bar.d = 0 → x.toNat ≤ 7 → s.syncClear (.sync die 0) (some g) →
      ∀ f ∈ ([Instr.pharv, Instr.phwait, Instr.pharw] : List (BitVec 6 → BitVec 6 → BitVec 6 → BitVec 5 → Instr)),
        gives (exec (f d a b g) s) s.me.bar 0xFFFFFFFF00000004) ∧
    (∀ o, x = BitVec.ofNat 64 (0xFFFF040000000000 + o) → o % 64 = 0 → 0x400000 ≤ o → o + 64 ≤ 2 ^ 30 →
      s.granted die s.cur.core o = true → s.bad (.sync die o) 64 = false → s.syncClear (.sync die o) (some g) →
      let waits := y / 4 % 2 = 1
      y % 2 ^ 32 < 8 → y < 2 ^ 48 →
      let at_ := Loc.sync die (o + 16 * (y % 4))
      let gen := s.peek at_ 4
      let arr := s.peek (at_.plus 4) 2
      let c := y / 2 ^ 32
      let cnt := if arr = 0 ∧ c ≠ 0 then c else s.peek (at_.plus 6) 2
      (cnt = 0 → ∃ t, exec (.brcmp d a b g) s = .next t ∧ s.Answers t (.x d.toNat) [0xFFFFFFFF00000004] .syncResultLands) ∧
      (cnt ≠ 0 → ∃ t, exec (.brcmp d a b g) s = .next t ∧
        (¬ waits ∨ (arr + 1) % 2 ^ 16 = cnt → s.Answers t (.x d.toNat) [BitVec.ofNat 64 gen] .syncResultLands) ∧
        (waits → (arr + 1) % 2 ^ 16 ≠ cnt → s.Waits t (.x d.toNat)) ∧
        t.peek (at_.plus 6) 2 = cnt ∧ t.peek (at_.plus 4) 2 = (if (arr + 1) % 2 ^ 16 = cnt then 0 else (arr + 1) % 2 ^ 16) ∧
        t.peek at_ 4 = if (arr + 1) % 2 ^ 16 = cnt then (gen + 1) % 2 ^ 32 else gen) ∧
      ∀ n : BitVec 64, s.rx b = n → (8 ≤ n.toNat % 2 ^ 32 ∨ 2 ^ 48 ≤ n.toNat) →
        gives (exec (.brcmp d a b g) s) s.me.bar 0xFFFFFFFF00000004) ∧
    (s.syncClear (.sync die 0) none → x.toNat < 2 ^ 14 →
      let old := s.myDie.rc.get 0 x.toNat
      ∃ t, exec (.rcinc d a b) s = .next t ∧ s.Answers t (.x d.toNat) [old.setWidth 64] .syncResultLands ∧ s.SameMemory t ∧
        t.myDie.rc = s.myDie.rc.set x.toNat (BitVec.ofNat 32 (min (2 ^ 32 - 1) (old.toNat + y % 2 ^ 32)))) ∧
    (∀ l, s.syncClear (.sync die 0) (some g) → x.toNat < 256 →
      s.snapPlace (s.rx b) = .ok ([l, l.plus 64, l.plus 128, l.plus 192], none) →
      (∀ k, k < 4 → s.bad (l.plus (64 * k)) 64 = false) →
      ∃ t, exec (.rcsnap d a b g) s = .next t ∧ s.Answers t (.x d.toNat) [0] .syncResultLands ∧
        (∀ k, k < 64 → t.peek (l.plus (4 * k)) 4 = (s.myDie.rc.get 0 (x.toNat * 64 + k)).toNat ∧
          t.myDie.rc.get 0 (x.toNat * 64 + k) = 0) ∧
        (∀ m, (∀ i, i < 256 → m ≠ l.plus i) → t.peek m 1 = s.peek m 1)) ∧
    (256 ≤ x.toNat → s.syncClear (.sync die 0) (some g) → gives (exec (.rcsnap d a b g) s) s.me.bar 0xFFFFFFFF00000004)

/-! ### Fences, windows and the fabric -/

/-- R293, R294, R295, R342, R347, R297: FENCEC, FENCEX and FENCES go on when no access of the slot that they name is on its way,
hold it while one is, and drain the buffered entries that they name, whichever slots wrote them (FENCEX drains none); FENCEC
raises the remote error of the first window with one, FENCES the scope fault of a group that does not exist. FENCEF waits
for the slot's writes through its window, and for room; then it sends its flag, 8 bytes of class 0, taking a unit of the
window, and waits for its acknowledgement; it raises the access fault, the alignment fault, and the remote error of its
window. No fence changes a register x or a byte of memory. -/
def Obligations.Fences : Prop :=
  ∀ (s : State) (m : BitVec 16) (p g : BitVec 5), s.cur.slot < 4 →
    let k := s.here
    let x := s.me
    let i := s.cur.slot
    let held := { x with st := .blocked, wait := .word }
    let wrote := fun (e : CombEntry) => (e.slots.foldl (fun a j => a + 2 ^ j) 0) / 2 ^ i % 2 = 1
    let sync := fun (a : Await) => match a.pkt.kind with | .sync _ => true | .snap => true | _ => false
    let out := fun (t : Await → Prop) => ∃ a ∈ k.awaits, a.of i = true ∧ t a
    let far := fun (v : Word) => ∃ w o, region v = .window w o
    let does := fun (o : Out) (y : Slot) (t : CombEntry → Prop) =>
      ∃ u, o = .next u ∧ u.me = y ∧ s.OthersAlone u ∧ s.SameMemory u ∧ ∀ e ∈ u.here.comb, ¬ t e
    (let on := fun (e : CombEntry) => m.getLsbD e.cls = true
     let busy := (∃ e ∈ k.comb, wrote e ∧ on e) ∨ out (fun a => m.getLsbD a.pkt.cls = true ∧ sync a = false) ∨
       (∃ l ∈ x.lands, l.kind = .store ∧ m.getLsbD l.cls = true) ∨ ∃ r ∈ k.arrivals, r.slot = i ∧ m.getLsbD r.cls = true
     (busy → does (exec (.fencec m) s) held on) ∧
     (¬ busy → (∀ w, w < 64 → (k.win w).valid = true → (k.win w).err = false) → does (exec (.fencec m) s) x.passed on) ∧
     (∀ w, ¬ busy → (∀ e ∈ k.comb, ¬ on e) → w < 64 → (k.win w).valid = true → (k.win w).err = true →
       (∀ v, v < w → (k.win v).valid = true → (k.win v).err = false) →
       exec (.fencec m) s = s.raise 0x18 (BitVec.ofNat 64 w) (BitVec.ofNat 64 (k.win w).reason))) ∧
    (let sets := fun (v : Word) => p.getLsbD 3 = true ∨ p.getLsbD 4 = true ∧ far v
     let busy := (p.getLsbD 4 = true ∧ ∃ e ∈ k.comb, e.slots.contains i = true) ∨
       out (fun a => (match a.pkt.kind with
         | .sync _ => p.getLsbD 3
         | .snap => p.getLsbD 3
         | .arrival _ _ => p.getLsbD 3 || p.getLsbD 4
         | _ => p.getLsbD 4) = true) ∨
       (p.getLsbD 0 = true ∧ ∃ l ∈ x.lands, l.kind = .store) ∨ (∃ l ∈ x.lands, ∃ v n, l.arrival = some (v, n) ∧ sets v) ∨
       (∃ r ∈ k.arrivals, r.slot = i ∧ sets r.addr) ∨ (p.getLsbD 3 = true ∧ ∃ q ∈ x.pend, q.sync = true ∧ q.answered = false)
     (¬ busy → s.Becomes (exec (.fencex p) s) x.passed) ∧ (busy → s.Becomes (exec (.fencex p) s) held)) ∧
    (let f := s.releaseSet g.toNat
     let none_ := ∀ e ∈ k.comb, f.entry e = false
     let busy := out (fun a => f.request a = true ∨ a.loads = true) ∨ (∃ l ∈ x.lands, l.kind = .store) ∨
       (∃ q ∈ x.pend, q.sync = true ∧ q.answered = false) ∨ ∃ r ∈ k.arrivals, r.slot = i
     (s.scopeBad g.toNat = true → exec (.fences g) s = s.raise 0x16 (g.setWidth 64) 0) ∧
     (s.scopeBad g.toNat = false → busy → none_ → s.Becomes (exec (.fences g) s) held) ∧
     (s.scopeBad g.toNat = false → ¬ busy → none_ → k.errWindow f.window = none →
       does (exec (.fences g) s) x.passed fun e => f.entry e = true)) ∧
    (∀ (w a b : BitVec 6) (o : Nat),
      let n := w.toNat
      let v := k.win n
      s.rx a = BitVec.ofNat 64 (0xFFFF020000000000 + n * 2 ^ 32 + o) → o < 2 ^ 32 →
      (o % 8 ≠ 0 → exec (.fencef w a b) s = s.raise 0x06 (s.rx a) 8) ∧
      (o % 8 = 0 → s.winOk v o 8 true false true = false → exec (.fencef w a b) s = s.raise 0x08 (s.rx a) 1) ∧
      (o % 8 = 0 → s.winOk v o 8 true false true = true →
        let busy := out fun a => a.pkt.win = n ∧ a.loads = false ∧ a.arrives = false
        (((∃ e ∈ k.comb, wrote e ∧ e.win = n) ∨ busy) → does (exec (.fencef w a b) s) held fun e => e.win = n) ∧
        ((∀ e ∈ k.comb, e.win ≠ n) → ¬ busy →
          (v.err = true → exec (.fencef w a b) s = s.raise 0x18 (BitVec.ofNat 64 n) (BitVec.ofNat 64 v.reason)) ∧
          (v.err = false → v.free = 0 → s.Becomes (exec (.fencef w a b) s) held) ∧
          (v.err = false → v.free ≠ 0 →
            ∃ t q, exec (.fencef w a b) s = .next t ∧ s.Waits t .none ∧ (t.here.win n).out = v.out + 1 ∧
              (∀ j, j ≠ n → t.here.win j = k.win j) ∧ s.SameMemory t ∧ s.OthersAlone t ∧
              t.packets.find s.ids = some q ∧ q.kind = .flag ∧ q.win = n ∧ q.cls = 0 ∧ q.slot = i ∧
              q.target = s.winLoc v (o / 64 * 64) ∧
              ∀ j, j < 64 → q.bytes.getLsbD j = decide (o % 64 ≤ j ∧ j < o % 64 + 8) ∧
                (o % 64 ≤ j → j < o % 64 + 8 → lineNat q.data j 1 = (s.rx b).toNat / 256 ^ (j - o % 64) % 256))))) ∧
    (∀ (w a b : BitVec 6), (s.rx a).toNat / 2 ^ 40 ≠ 0xFFFF02 ∨ (s.rx a).toNat / 2 ^ 32 % 2 ^ 8 ≠ w.toNat →
      exec (.fencef w a b) s = s.raise 0x08 (s.rx a) 1)

/-- R333, R334, R343 to R346, R412: the window words and the map words. WINSET of a readable descriptor waits for the window's
entries, which it drains, and for its units; a descriptor or a route is installed when its checks pass, and refused with its
reason word otherwise; WALLOW and WINQ answer at once, TOPORD and RTCHK later. No byte of memory changes but those of a
capture of host memory that the descriptor is read from. -/
def Obligations.WindowWords : Prop :=
  ∀ (s : State) (w a b d : BitVec 6) (i : BitVec 2), s.cur.slot < 4 →
    let k := s.here
    let n := w.toNat
    let x := k.win n
    let t3 := s.mapTorus s.cur.die s.cur.core
    let frame := fun (t : State) => t.me = s.me.passed ∧ s.OthersAlone t ∧ s.SameMemory t ∧ ∀ j, j ≠ n → t.here.win j = k.win j
    (∀ v, s.blockRead (s.rx a) 64 64 = .ok v → ((∃ e ∈ k.comb, e.win = n) ∨ x.out ≠ 0) →
      ∃ t, exec (.winset w a) s = .next t ∧ t.me = { s.me with st := .blocked, wait := .word } ∧ s.OthersAlone t ∧
        (s.captureRead (s.rx a) 64 64).SameMemory t ∧ ∀ e ∈ t.here.comb, e.win ≠ n) ∧
    (∀ v, s.blockRead (s.rx a) 64 64 = .ok v → (∀ e ∈ k.comb, e.win ≠ n) → x.out = 0 →
      ((v / 2 ^ 307 % 2 = 0 ∨ s.winRefused v = none) → ∃ t, exec (.winset w a) s = .next t ∧ t.me = s.me.passed ∧
        s.OthersAlone t ∧ (s.captureRead (s.rx a) 64 64).SameMemory t ∧ (∀ j, j ≠ n → t.here.win j = k.win j) ∧
        t.here.win n = { windowOf v with gang := (t.here.win n).gang, gen := (t.here.win n).gen }) ∧
      (∀ r, v / 2 ^ 307 % 2 = 1 → s.winRefused v = some r → s.me.inh = false → ∃ t, exec (.winset w a) s = .next t ∧
        t.me.trapCause = 0x17 ∧ t.me.trapVal = BitVec.ofNat 64 r.1 ∧ t.me.trapInfo = BitVec.ofNat 64 r.2 ∧ t.here.wins = k.wins)) ∧
    (x.valid = true → i.toNat ≤ x.nrt → routeCheck t3 k.turn (s.rx a) (s.pos s.cur.die) x.tgt x.cl = 0 →
      ∃ t, exec (.winrt w a i) s = .next t ∧ frame t ∧ t.here.win n = { x with routes := x.routes.setIfInBounds i.toNat (s.rx a) }) ∧
    (x.valid = true → x.nrt < i.toNat → exec (.winrt w a i) s = s.raise 0x17 (i.setWidth 64) (BitVec.ofNat 64 (1 + i.toNat * 2 ^ 16))) ∧
    (x.valid = false → exec (.winrt w a i) s = s.raise 0x08 (BitVec.ofNat 64 (0xFFFF020000000000 + n * 2 ^ 32)) 0 ∧
      exec (.wallow w d a) s = s.raise 0x08 (BitVec.ofNat 64 (0xFFFF020000000000 + n * 2 ^ 32)) 0) ∧
    (x.valid = true → s.rx a = 0 → s.WritesX (exec (.wallow w d a) s) d (BitVec.ofNat 64 (x.allow + 1)) 1) ∧
    (x.valid = true → s.rx a ≠ 0 → ∃ t, exec (.wallow w d a) s = .next t ∧ s.me.Writes t.me s.clk d (BitVec.ofNat 64 (x.allow + 1)) 1 ∧
      (t.here.win n).allow = min (s.rx a).toNat 1024 - 1 ∧ (t.here.win n).valid = true ∧ s.SameMemory t ∧
      ∀ j, j ≠ n → t.here.win j = k.win j) ∧
    s.WritesX (exec (.winq w d) s) d (BitVec.ofNat 64 (x.out + x.allow * 2 ^ 11 + (if x.valid then 2 ^ 21 else 0) +
      (if x.gang then 2 ^ 22 else 0) + (if x.err then 2 ^ 23 else 0) + x.reason % 2 ^ 18 * 2 ^ 24)) 1 ∧
    (let nd := s.mapWord s.cur.die s.cur.core 1 / 2 ^ 16 % 2 ^ 16
     let l := s.mapLoc s.cur.die s.cur.core (s.rx a).toNat
     (8 + 7 * nd ≤ (s.rx a).toNat → ∃ t, exec (.topord d a) s = .next t ∧ s.SameMemory t ∧
       s.Answers t (.x d.toNat) [BitVec.allOnes 64] .variableLoadLanding) ∧
     ((s.rx a).toNat < 8 + 7 * nd → s.bad l 8 = false → ∃ t, exec (.topord d a) s = .next t ∧ s.SameMemory t ∧
       s.Answers t (.x d.toNat) [BitVec.ofNat 64 (s.peek l 8)] .variableLoadLanding)) ∧
    (let v := (s.rx b).toNat
     let c := routeCheck t3 k.turn (s.rx a) (s.pos s.cur.die) #v[v % 32, v / 2 ^ 5 % 32, v / 2 ^ 10 % 32] (v / 2 ^ 15 % 4)
     v < 2 ^ 17 → ∃ t y, exec (.rtchk d a b) s = .next t ∧ s.SameMemory t ∧ s.Answers t (.x d.toNat) [y] .variableLoadLanding ∧
       y.toNat / 2 ^ 32 = s.mapWord s.cur.die s.cur.core 0 / 2 ^ 32 ∧ (c ≠ 0 → y.toNat % 2 ^ 32 = c) ∧
       (c = 0 → y.toNat % 2 ^ 8 = 0 ∨ y.toNat % 2 ^ 8 = 6))

/-- R325, R331, R485: PACKET_FORWARD and FLIT_ACK of a packet. A packet on its way out that meets a working link, and one on its
way back over the links it came by, is put into the replay buffer of the link; a down link turns a request back with reason 6,
and drops a reply. A request at its eject, and an answer back at its source, arrive there. The acknowledgement of a flit that is
the oldest of its link and is not damaged takes its packet one die on, along its route or back along its path. Nothing but
the link, the packet and the steps to come changes. -/
def Obligations.PacketHops : Prop :=
  ∀ (s : State) (p : Packet), s.packets.find s.cur.id = some p → p.id = s.cur.id →
    let d := p.route.toNat / 2 ^ (8 * p.seg + 5) % 8
    let link := fun (t : State) (n d : Nat) => vget (t.die n).links d {}
    let moves := fun (t : State) (n d : Nat) =>
      t = { s with dies := t.dies, packets := t.packets, agenda := t.agenda, now := t.now, fresh := t.fresh } ∧
      (∀ x, t.die x = { s.die x with links := (t.die x).links }) ∧ ∀ x e, (x ≠ n ∨ e ≠ d) → link t x e = link s x e
    let sent := fun (q : Packet) (d : Nat) =>
      ∃ t due, exec .packetForward s = .next t ∧ moves t p.at_ d ∧ t.packets = s.packets ∧ t.now = s.now ∧
        (link t p.at_ d).flits = (link s p.at_ d).flits ++ [{ seq := (link s p.at_ d).seq, pkt := q }] ∧ s.clk < due ∧
        t.agenda = s.agenda ++ [(due, { who := { die := p.at_, core := p.core, slot := p.slot, id := p.id, n := d }, op := .flitAck })]
    (p.back = false → d < 6 → (link s p.at_ d).st.toNat < 2 → sent p d) ∧
    (∀ a dir vc rest, p.back = true → p.path = (a, dir, vc) :: rest → dir < 6 →
      let e := if dir % 2 = 0 then dir + 1 else dir - 1
      ((link s p.at_ e).st.toNat < 2 → sent { p with vc := vc } e) ∧
      (2 ≤ (link s p.at_ e).st.toNat → p.reason = 0 →
        exec .packetForward s = .next { s with packets := s.packets.erase p.id })) ∧
    (p.back = false → d < 6 → 2 ≤ (link s p.at_ d).st.toNat →
      let q := { p with back := true, reason := 6 + p.seg * 2 ^ 8 + p.hop * 2 ^ 11 + p.ridx * 2 ^ 16 }
      exec .packetForward s =
        .next { s with packets := s.packets.set p.id q, now := s.now ++ [packetEv q .packetForward] }) ∧
    (p.back = false → d = 6 → exec .packetForward s =
      .next { s with now := s.now ++ [packetEv p (if isPush p.kind then .remotePushArrive else .remoteRequestArrive)] }) ∧
    (p.back = true → p.path = [] → exec .packetForward s = .next { s with now := s.now ++ [packetEv p p.homeStep] } ∧
      (p.reason ≠ 0 → p.homeStep = .bounceReceived)) ∧
    (∀ f rest, s.cur.n < 6 → (vget s.myDie.links s.cur.n {}).flits = f :: rest → f.pkt = p → f.damaged = false →
      ∃ t q, exec .flitAck s = .next t ∧ moves t s.cur.die s.cur.n ∧ (link t s.cur.die s.cur.n).flits = rest ∧
        t.packets = s.packets.set p.id q ∧ t.now = s.now ++ [packetEv q .packetForward] ∧ t.agenda = s.agenda ∧
        (p.back = false → q.at_ = s.neighbour p.at_ s.cur.n ∧ q.path.map (·.1) = p.at_ :: p.path.map (·.1) ∧
          (if p.route.toNat / 2 ^ (8 * p.seg) % 32 ≤ p.hop + 1 then q.seg = p.seg + 1 ∧ q.hop = 0
            else q.seg = p.seg ∧ q.hop = p.hop + 1)) ∧
        (∀ a dir vc path, p.back = true → p.path = (a, dir, vc) :: path → q = { p with at_ := a, path := path }))

/-- R331, R338, R340, R341, R342, R297, R285: a load, and a posted write whose turn it is, perform at their target when nothing
of their slot goes before them, or are refused there with reason 8, and go back; the acknowledgement, the bounce and the time
limit of a posted write return its unit, a bounce and a time limit as an error of the window; the reply of a load brings its
register's value; the gap of a sequence is given up; an entry of the combining buffer drains at its time limit. -/
def Obligations.RemoteAccesses : Prop :=
  ∀ (s : State) (p : Packet), s.packets.find s.cur.id = some p → p.id = s.cur.id →
    let home := s.core p.die p.core
    let awaited := s.awaited p = true
    let ended := fun (t : State) => (∀ a ∈ (t.core p.die p.core).awaits, a.pkt.id ≠ p.id) ∧ t.packets.find p.id = none
    let returns := fun (o : Out) (q : Packet) =>
      o = .next { s with packets := s.packets.set p.id q, now := s.now ++ [packetEv q .packetForward] }
    let wanted := fun (ps : List (Nat × Nat × Nat)) (i : Nat) => ∃ q ∈ ps, q.1 ≤ i ∧ i < q.1 + q.2.1
    (∀ g ps, p.kind = .load g ps → s.loadWaits p = false → s.rejected p = false →
      ∃ q, returns (exec .remoteRequestArrive s) q ∧ q.back = true ∧ q.reason = p.reason ∧
        (∀ i, i < 64 → lineNat q.data i 1 = if p.bytes.getLsbD i then lineNat p.data i 1 else s.peek (p.target.plus i) 1) ∧
        ((∀ i, wanted ps i → p.bytes.getLsbD i = false → s.bad (p.target.plus i) 1 = false) → q.late = none) ∧
        ((∃ i, wanted ps i ∧ p.bytes.getLsbD i = false ∧ s.bad (p.target.plus i) 1 = true) →
          q.late = some { cause := 0x09, pc := p.pc, val := p.addr, info := 0 })) ∧
    (∀ g ps, p.kind = .load g ps → s.loadWaits p = false → s.rejected p = true →
      returns (exec .remoteRequestArrive s) { p with back := true, reason := 8 + p.ridx * 2 ^ 16 }) ∧
    (∀ d c o, p.kind = .posted → p.target = .cistern d c o → (s.seqOf p.at_ p).held = [] → (s.seqOf p.at_ p).next = p.seq →
      s.behindLoad p = false →
      (s.rejected p = false → (s.core d c).cistern.poison = [] →
        ∃ t q, exec .remoteRequestArrive s = .next t ∧ t.packets.find p.id = some q ∧ q.back = true ∧ q.reason = p.reason ∧
          (t.seqOf p.at_ p).next = p.seq + 1 ∧ t.now = s.now ++ [packetEv q .packetForward] ∧
          (∀ i, i < 64 → t.peek (.cistern d c (o + i)) 1 =
            if p.bytes.getLsbD i then lineNat p.data i 1 else s.peek (.cistern d c (o + i)) 1) ∧
          ∀ m, (∀ i, i < 64 → m ≠ .cistern d c (o + i)) → t.peek m 1 = s.peek m 1) ∧
      (s.rejected p = true → ∃ t q, exec .remoteRequestArrive s = .next t ∧ s.SameMemory t ∧ t.packets.find p.id = some q ∧
        q.back = true ∧ q.reason = 8 + p.ridx * 2 ^ 16 ∧ (t.seqOf p.at_ p).next = p.seq + 1)) ∧
    (p.kind = .posted → awaited → p.win < 64 →
      ∃ t, exec .postedWriteAck s = .next t ∧ ended t ∧ s.SameMemory t ∧
        ((t.core p.die p.core).win p.win).out = (home.win p.win).out - 1 ∧ ∀ j, j ≠ p.win → (t.core p.die p.core).win j = home.win j) ∧
    (p.kind = .posted → awaited → p.win < 64 →
      ∃ t, exec .bounceReceived s = .next t ∧ ended t ∧ s.SameMemory t ∧ ((t.core p.die p.core).win p.win).err = true ∧
        ((t.core p.die p.core).win p.win).reason = (if (home.win p.win).err then (home.win p.win).reason else p.reason) ∧
        ((t.core p.die p.core).win p.win).out = (home.win p.win).out - 1 ∧
        ∀ j, j ≠ p.win → (t.core p.die p.core).win j = home.win j) ∧
    (∀ g a n x q, p.kind = .load g [(a, n, 0)] → awaited → p.slot < 4 → p.late = none →
      s.findPend p.die p.core p.slot p.owner = some q → q.left = 1 → q.dest = .x x → q.block = none → q.late = none →
      ∃ t r due, exec .remoteReplyReceived s = .next t ∧ ended t ∧ s.SameMemory t ∧
        t.findPend p.die p.core p.slot p.owner = some r ∧ r.answered = true ∧ r.dest = .x x ∧
        r.vals = [extendTo n (lineNat p.data a n) g] ∧ r.late = none ∧ s.clk < due ∧
        (due, { who := { die := p.die, core := p.core, slot := p.slot, id := p.owner }, op := .variableLoadLanding }) ∈ t.agenda) ∧
    (∀ a, s.here.awaits.find? (fun a => a.pkt.id == s.cur.id) = some a → a.pkt = p → p.die = s.cur.die → p.core = s.cur.core →
      p.kind = .posted → p.win < 64 → (home.win p.win).err = false → a.until_ ≤ s.clk →
      ∃ t, exec .fabTimeout s = .next t ∧ ended t ∧ ((t.core p.die p.core).win p.win).err = true ∧
        ((t.core p.die p.core).win p.win).reason = 9 + p.ridx * 2 ^ 16) ∧
    (∀ w : Packet, s.heldWrite s.cur.die s.cur.id = some w → (s.seqOf s.cur.die w).next < w.seq →
      ((s.seqOf s.cur.die w).held.any fun h => h.1.id == w.id && decide (h.2 + s.targetTimeout w ≤ s.clk)) = true →
      ∃ t, exec .sequenceGapTimeout s = .next t ∧
        (t.seqOf s.cur.die w).lost = (s.seqOf s.cur.die w).lost ++ [(s.seqOf s.cur.die w).next]) ∧
    (∀ e, s.here.comb.find? (fun e => e.id == s.cur.id) = some e →
      ∃ t, exec .combiningDrainTimeout s = .next t ∧ s.SameMemory t ∧ ∀ x ∈ t.here.comb, x.id ≠ e.id)

/-! ### Tasks, queues and deadlines -/

/-- R351, R352, R353, R356 to R361, R338: the words of the wellhead with the wellhead ready and fewer than 32 operations in
flight, and its steps. TKPUSH of a readable record (u: with the lines of host memory that the read takes into a capture)
answers failure form 4 or 1, or a free handle under which the record waits, or is queued; through a window it leaves as a
packet, or raises the access fault of the window. TKPOP answers a failure form, waits, or starts the task at the head of the
list. TKDONE ends the task, takes its record away, and answers a count, 0 for a record without a successor list. TKPEEK and
JCNT answer. The wellhead, after the records that it owed (w), dispatches the next record, discards it, or does nothing. A
remote push is answered at its target, or refused with reason 8, and its answer counted at its source. -/
def Obligations.TaskWords : Prop :=
  ∀ (s : State) (d a b : BitVec 6), s.cur.slot < 4 →
    let x := s.myDie
    let fails := fun (n : Nat) => BitVec.ofNat 64 (0xFFFFFFFF00000000 + n)
    let clear := x.rdy.getLsbD 18 = true ∧ s.here.syncInFlight < 32
    let answers := fun (o : Out) (dest : Dest) (vs : List Word) =>
      ∃ t, o = .next t ∧ s.Answers t dest vs .syncResultLands ∧ s.OnlySlotsAndSteps t ∧ s.OthersAlone t ∧ s.SameMemory t
    (∀ v, s.taskRecord (s.rx a) = .ok v →
      let u := s.captureRead (s.rx a) 64 64
      let deps := v / 2 ^ 400 % 2 ^ 16
      let queue := v / 2 ^ 384 % 2 ^ 10
      let job := v / 2 ^ 416 % 2 ^ 16
      let granted := s.jobGranted s.cur.die s.cur.core job
      let fits := recordOk v = true ∧ granted = true
      let gives := fun (n : Nat) => ∃ t, exec (.tkpush d a b 0) s = .next t ∧ s.Answers t (.x d.toNat) [fails n] .syncResultLands ∧
        s.OthersAlone t ∧ u.SameMemory t ∧ t.myDie.recs = x.recs ∧ t.myDie.queues = x.queues ∧ t.myDie.jobs = x.jobs
      (clear → s.fenceClear (s.releaseSet 2) →
        (¬ fits → gives 4) ∧ (fits → 65536 ≤ x.recs.entries.length → gives 1) ∧
        (fits → x.recs.entries.length < 65536 →
          ∃ t h r, exec (.tkpush d a b 0) s = .next t ∧ s.Answers t (.x d.toNat) [BitVec.ofNat 64 h] .syncResultLands ∧
            s.OthersAlone t ∧ u.SameMemory t ∧ h < 65536 ∧ x.recs.find h = none ∧ t.myDie.recs = x.recs.set h r ∧
            r = { recordOf v s.here.ctx.asid.toNat with st := if deps = 0 then .queued else .waiting } ∧
            t.myDie.queues = (if deps = 0 then x.queues.set queue (x.queues.get [] queue ++ [h]) else x.queues) ∧
            let y := x.jobs.get {} (job % 256)
            t.myDie.jobs = x.jobs.set (job % 256) { y with out := y.out + 1 })) ∧
      (let n := (s.rx b).toNat % 64
       let ok := (s.here.win n).valid = true ∧ (s.here.win n).gang = true ∧ (s.here.win n).kind = 2
       (¬ ok → exec (.tkpush d a b 1) s = u.raise 0x08 (BitVec.ofNat 64 (0xFFFF020000000000 + n * 2 ^ 32)) 0) ∧
       (ok → s.here.syncInFlight < 32 → s.fenceClear (s.releaseSet 3) →
         ∃ t q, exec (.tkpush d a b 1) s = .next t ∧ s.OthersAlone t ∧ u.SameMemory t ∧
           t.me = { s.me.passed with pend := t.me.pend } ∧
           (∃ p ∈ t.me.pend, p.id = s.ids ∧ p.dest = .x d.toNat ∧ p.answered = false) ∧
           t.packets.find s.ids = some q ∧ isPush q.kind = true ∧ q.target = .sync (s.winDie (s.here.win n)) 0 ∧
           let y := x.jobs.get {} job
           (job < 256 → t.myDie.jobs = x.jobs.set job { y with infl := y.infl + 1, sent := y.sent + 1 })))) ∧
    (∀ w, clear → s.me.task.isSome → answers (exec (.tkpop d w) s) (.x d.toNat) [fails 4]) ∧
    (clear → s.me.task = none → s.here.prefetch = [] → answers (exec (.tkpop d 0) s) (.x d.toNat) [fails 2]) ∧
    (s.me.task = none → s.here.prefetch = [] → s.Becomes (exec (.tkpop d 1) s) { s.me with st := .blocked, wait := .word }) ∧
    (∀ w h rest r, clear → s.me.task = none → s.here.prefetch = h :: rest → x.recs.find h = some r →
      ∃ t, exec (.tkpop d w) s = .next t ∧ s.OthersAlone t ∧ s.SameMemory t ∧
        t.me = { s.me with task := some h, guards := 0, pc := alignPc (BitVec.ofNat 64 (r.field 0 8)), pend := t.me.pend } ∧
        (∀ e ∈ ([(.x2 1 2, [BitVec.ofNat 64 (r.field 8 8), BitVec.ofNat 64 (r.field 16 8)]),
            (.x2 3 4, [BitVec.ofNat 64 (r.field 24 8), BitVec.ofNat 64 (r.field 32 8)]),
            (.x2 63 d.toNat, [s.me.pc + 4, BitVec.ofNat 64 h])] : List (Dest × List Word)),
          ∃ p ∈ t.me.pend, p.dest = e.1 ∧ p.vals = e.2 ∧ p.answered = true) ∧
        t.myDie.recs = x.recs.set h { r with st := .running, runner := some (s.cur.core, s.cur.slot) } ∧ h ∉ t.here.prefetch) ∧
    ((clear → s.me.task = none → ∃ t, exec (.tkdone d) s = .next t ∧ s.Answers t (.x d.toNat) [fails 4] .syncResultLands ∧
       s.OnlySlotsAndSteps t ∧ s.OthersAlone t ∧ s.SameMemory t ∧ (s.me.stopAsked = true → t.me.st = .ready ∧ t.me.stopped = true)) ∧
     (∀ h r, clear → s.fenceClear (s.releaseSet 2) → s.me.task = some h → x.recs.find h = some r →
       ∃ t n, exec (.tkdone d) s = .next t ∧ s.Answers t (.x d.toNat) [BitVec.ofNat 64 n] .syncResultLands ∧ t.me.task = none ∧
         t.myDie.recs.find h = none ∧ (r.field 56 8 = 0 → n = 0) ∧
         (s.me.stopAsked = true → t.me.st = .ready ∧ t.me.stopped = true))) ∧
    s.WritesX (exec (.tkpeek d a 0) s) d (BitVec.ofNat 64 s.here.prefetch.length) 1 ∧
    s.WritesX (exec (.tkpeek d a 1) s) d ((s.here.prefetch.head?.map (BitVec.ofNat 64)).getD (fails 2)) 1 ∧
    s.WritesX (exec (.tkpeek d a 2) s) d
      (if (s.rx a).toNat < 1024 then BitVec.ofNat 64 (x.queues.get [] (s.rx a).toNat).length else fails 4) 1 ∧
    s.WritesX (exec (.tkpeek d a 3) s) d (BitVec.ofNat 64 (65536 - x.recs.entries.length)) 1 ∧
    (let j := (s.rx a).toNat
     let y := x.jobs.get {} j
     (clear → s.jobGranted s.cur.die s.cur.core j = true → answers (exec (.jcnt d a b) s) (.x2 d.toNat b.toNat)
       [BitVec.ofNat 64 (y.out % 2 ^ 32 + y.infl % 2 ^ 32 * 2 ^ 32), BitVec.ofNat 64 (y.sent.toNat + y.recv.toNat * 2 ^ 32)]) ∧
     (clear → s.jobGranted s.cur.die s.cur.core j = false →
       answers (exec (.jcnt d a b) s) (.x2 d.toNat b.toNat) [fails 4, fails 4])) ∧
    (let w := if s.cur.n = 0 then s.installOwed s.cur.die else s
     (w.nextDispatch s.cur.die s.cur.n = none → exec .wellheadDispatch s = .next w) ∧
     (∀ q h r c, w.nextDispatch s.cur.die s.cur.n = some (.send q h r c) → w.myDie.recs.find h = some r →
       ∃ t, exec .wellheadDispatch s = .next t ∧ w.SameMemory t ∧ (t.core s.cur.die c).prefetch = (w.core s.cur.die c).prefetch ++ [h] ∧
         t.myDie.recs = w.myDie.recs.set h { r with st := .prefetched } ∧ h ∉ t.myDie.queues.get [] r.queue) ∧
     (∀ h r, w.nextDispatch s.cur.die s.cur.n = some (.discard h r) →
       ∃ t, exec .wellheadDispatch s = .next t ∧ t.myDie.recs.find h = none)) ∧
    (∀ p r, s.packets.find s.cur.id = some p → p.id = s.cur.id → p.kind = .sync r →
      (∀ c, s.hostOf p.at_ p.asid = some c → (s.die p.at_).rdy.getLsbD 18 = true →
        let y := s.pushLocal p.at_ c r.data.toNat p.asid
        ∃ t q, exec .remotePushArrive s = .next t ∧ t.packets.find p.id = some q ∧ q.back = true ∧ q.reason = p.reason ∧
          q.vals = [y.1] ∧ (t.die p.at_).recs = (y.2.die p.at_).recs ∧ s.SameMemory t) ∧
      (s.hostOf p.at_ p.asid = none →
        ∃ t q, exec .remotePushArrive s = .next t ∧ t.packets.find p.id = some q ∧ q.back = true ∧ q.reason = 8 + p.ridx * 2 ^ 16 ∧
          s.SameMemory t ∧ ∀ n, t.die n = s.die n) ∧
      (∀ y, s.awaited p = true → p.slot < 4 → p.late = none → y ∈ (s.slot p.die p.core p.slot).pend → y.id = r.id →
        ∃ t, exec .remotePushReply s = .next t ∧ t.packets.find p.id = none ∧ s.SameMemory t ∧
          { y with answered := true, vals := p.vals, late := none } ∈ (t.slot p.die p.core p.slot).pend ∧
          ∀ j v, j = r.data.toNat / 2 ^ 416 % 2 ^ 16 → j < 256 → p.vals = [v] →
            let k := (s.die p.die).jobs.get {} j
            (t.die p.die).jobs = (s.die p.die).jobs.set j
              { k with infl := k.infl - 1, sent := if v.toNat < 2 ^ 32 then k.sent else k.sent - 1 }))

/-- R363, R364, R365: RNGGET of a thread outside a stroke, at a correctable range record, answers a grant and takes it from the
record, or refuses its parameters with failure form 4; at an uncorrectable one it answers failure form 7. SCHNXT at a schedule
of the own cistern that nothing holds back answers the next entry and counts it, or 0 at the end. DLSET sets and DLCHK reads a
deadline counter of a granted class; another class gives failure form 4; an armed counter expires once. -/
def Obligations.GrantsAndDeadlines : Prop :=
  ∀ (s : State) (d a b : BitVec 6) (st : BitVec 1), s.cur.slot < 4 →
    let x := s.myDie
    let answers := fun (t : State) (v : Word) => s.Answers t (.x d.toNat) [v] .syncResultLands
    (∀ o, s.rx a = BitVec.ofNat 64 (0xFFFF040000000000 + o) → o % 16 = 0 → 0x400000 ≤ o → o + 16 ≤ 2 ^ 30 →
      s.granted s.cur.die s.cur.core o = true → s.syncClear (.sync s.cur.die o) (some 2) →
      s.nodeOf s.cur.die s.cur.core s.cur.slot = none →
      let l := Loc.sync s.cur.die o
      let y := (s.rx b).toNat
      let next := s.peek l 8
      let rem := s.peek (l.plus 8) 8 - next
      let chunk := y % 2 ^ 24
      let p := y / 2 ^ 32 % 2 ^ 16
      let c := min (min rem (max chunk ((rem + p - 1) / p))) (2 ^ 24 - 1)
      (chunk ≠ 0 → y / 2 ^ 24 % 2 ^ 8 = 0 → p ≠ 0 → y < 2 ^ 48 → s.bad l 16 = true →
        ∃ t, exec (.rngget d a b) s = .next t ∧ answers t 0xFFFFFFFF00000007 ∧ t.peek l 16 = s.peek l 16) ∧
      (chunk ≠ 0 → y / 2 ^ 24 % 2 ^ 8 = 0 → p ≠ 0 → y < 2 ^ 48 → s.bad l 16 = false →
        ∃ t, exec (.rngget d a b) s = .next t ∧ answers t (if c = 0 then 0 else BitVec.ofNat 64 (c * 2 ^ 40 + next)) ∧
          s.Stores t l 8 (next + c)) ∧
      ((chunk = 0 ∨ y / 2 ^ 24 % 2 ^ 8 ≠ 0 ∨ p = 0 ∨ 2 ^ 48 ≤ y) →
        ∃ t, exec (.rngget d a b) s = .next t ∧ answers t 0xFFFFFFFF00000004 ∧ s.SameMemory t)) ∧
    (∀ o, s.rx a = BitVec.ofNat 64 (0xFFFF000000000000 + o) → o % 64 = 0 → o < 2 ^ 20 → s.me.dbgp = false →
      (∀ at_ n wr, s.here.held at_ n wr = false ∧ s.here.pendingBytes at_ n = false ∧ s.here.lateAt at_ n = none) → s.here.cistern.poison = [] → s.here.syncInFlight < 32 →
      let l := Loc.cistern s.cur.die s.cur.core o
      let n := s.peek l 4
      let i := s.peek (l.plus 4) 4
      s.here.part.regg * 4096 ≤ o → o + 64 + 8 * n ≤ (s.here.part.regg + s.here.part.scrg) * 4096 →
      (n ≤ i → ∃ t, exec (.schnxt d a) s = .next t ∧ answers t 0 ∧ s.SameMemory t) ∧
      (i < n → ∃ t, exec (.schnxt d a) s = .next t ∧ answers t (BitVec.ofNat 64 (s.peek (l.plus (64 + 8 * i)) 8)) ∧
        s.Stores t (l.plus 4) 4 (i + 1))) ∧
    (let c := (s.rx a).toNat
     let n := min (s.rx b).toNat (2 ^ 48 - 1)
     let y := x.deadlines.get {} c
     let left := if y.armed then y.at_ - s.clk else 0
     (x.rdy.getLsbD 18 = true → s.here.syncInFlight < 32 → s.classGranted s.cur.die s.cur.core c = true →
       ∃ t, exec (.dlset d a b st) s = .next t ∧ answers t (BitVec.ofNat 64 left) ∧ s.SameMemory t ∧
         t.myDie.deadlines = x.deadlines.set c (if n = 0 then {} else { armed := true, at_ := s.clk + n, exp := false, stop := st == 1 }) ∧
         (n ≠ 0 → (s.clk + n, { who := { die := s.cur.die, id := c }, op := .deadlineExpiry }) ∈ t.agenda)) ∧
     (x.rdy.getLsbD 18 = true → s.here.syncInFlight < 32 → s.classGranted s.cur.die s.cur.core c = false →
       ∃ t, exec (.dlset d a b st) s = .next t ∧ answers t 0xFFFFFFFF00000004 ∧ s.SameMemory t ∧ t.myDie.deadlines = x.deadlines) ∧
     (s.classGranted s.cur.die s.cur.core c = true →
       s.WritesX (exec (.dlchk d a) s) d (BitVec.ofNat 64 (left + if y.exp then 2 ^ 63 else 0)) 1) ∧
     (s.classGranted s.cur.die s.cur.core c = false → s.WritesX (exec (.dlchk d a) s) d 0xFFFFFFFF00000004 1)) ∧
    (let y := x.deadlines.get {} s.cur.id
     y.armed = true → y.at_ ≤ s.clk →
       s.BecomesDie (exec .deadlineExpiry s)
         { x with deadlines := x.deadlines.set s.cur.id { y with armed := false, exp := true }
                  posted := x.posted ++ [{ kind := 0x101, a := BitVec.ofNat 64 s.cur.id, b := 0 }] })

/-! ### Graphs, guards and tokens -/

/-- R402, R403, R405, R406: the guards and the mark of a node, with fewer than 32 operations in flight. With the token of the
stroke they answer 0 while recording, 0 in a replay where the trace agrees, 1 and a guard stop where it differs, and 2 in the
other modes; without a stroke, or with another token, 2. GRDHLTH answers 4 for a mask of more than 7 bits. CTKSET refuses token
0 with 4 and a token that finds no room with 1, and else sets a token on every die of the gang or clears it there; CTKCHK looks
up a token, or that of its own task. -/
def Obligations.GuardsAndTokens : Prop :=
  ∀ (s : State) (d a : BitVec 6) (tag : BitVec 4), s.cur.slot < 4 → s.here.syncInFlight < 32 →
    let answers := fun (t : State) (v : Word) => s.Answers t (.x d.toNat) [v] .syncResultLands
    (∀ e ∈ ([(Instr.grdshp d a tag, 0, tag.toNat, s.rx a), (Instr.grdval d a tag, 1, tag.toNat, s.rx a),
        (Instr.grdhlth d a, 2, 0, s.healthWord &&& s.rx a), (Instr.recmrk d a, 3, 0, s.rx a)] : List (Instr × Nat × Nat × Word)),
      (e.2.1 = 2 → (s.rx a).toNat < 2 ^ 7) →
      (s.nodeOf s.cur.die s.cur.core s.cur.slot = none → ∃ t, exec e.1 s = .next t ∧ answers t 2 ∧ s.SameMemory t) ∧
      (∀ key node r y, s.nodeOf s.cur.die s.cur.core s.cur.slot = some (key, node, r) →
        s.taskOf s.cur.die s.cur.core s.cur.slot = some y →
        (y.ctk ≠ r.token → ∃ t, exec e.1 s = .next t ∧ answers t 2 ∧ s.SameMemory t) ∧
        (y.ctk = r.token →
        (r.mode = .record → ∃ t, exec e.1 s = .next t ∧ answers t 0) ∧
        ((r.mode = .stopping ∨ r.mode = .handedOff ∨ r.mode = .dynamic) → ∃ t, exec e.1 s = .next t ∧ answers t 2) ∧
        (r.mode = .replay →
          let filed := (s.here.player.guardsOf node)[s.me.guards]?
          let agrees := e.2.1 = 3 ∨ ∃ g, filed = some g ∧ g.aux = e.2.1 ∧ g.tag = e.2.2.1 ∧ g.b = e.2.2.2
          (agrees → ∃ t, exec e.1 s = .next t ∧ answers t 0 ∧ t.me.guards = s.me.guards + 1) ∧
          (¬ agrees → ∃ t, exec e.1 s = .next t ∧ answers t 1 ∧ (t.stroke s.cur.die key).map (·.mode) = some .stopping))))) ∧
    (2 ^ 7 ≤ (s.rx a).toNat → ∃ t, exec (.grdhlth d a) s = .next t ∧ answers t 4) ∧
    (let v := (s.rx a).toNat
     let ds := insertNat (s.gangOf s.cur.die s.cur.core) s.cur.die
     (s.fenceClear (s.releaseSet 3) → v = 0 → ∀ c, ∃ t, exec (.ctkset d a c) s = .next t ∧ answers t 4 ∧ s.SameMemory t) ∧
     (s.fenceClear (s.releaseSet 3) → v ≠ 0 → (∀ n ∈ ds, v ∈ (s.die n).tokens ∨ (s.die n).tokens.length < 1024) →
       ∃ t, exec (.ctkset d a 0) s = .next t ∧ answers t 0 ∧ ∀ n ∈ ds, v ∈ (t.die n).tokens) ∧
     (s.fenceClear (s.releaseSet 3) → v ≠ 0 → (∃ n ∈ ds, v ∉ (s.die n).tokens ∧ 1024 ≤ (s.die n).tokens.length) →
       ∃ t, exec (.ctkset d a 0) s = .next t ∧ answers t 1 ∧ ∀ n, (t.die n).tokens = (s.die n).tokens) ∧
     (s.fenceClear (s.releaseSet 3) → v ≠ 0 →
       ∃ t, exec (.ctkset d a 1) s = .next t ∧ answers t 0 ∧ ∀ n ∈ ds, v ∉ (t.die n).tokens) ∧
     (a ≠ 0 → ∃ t, exec (.ctkchk d a) s = .next t ∧ s.SameMemory t ∧
       answers t (if v ≠ 0 ∧ v ∈ s.myDie.tokens then 1 else 0)) ∧
     (∀ y, s.taskOf s.cur.die s.cur.core s.cur.slot = some y → ∃ t, exec (.ctkchk d 0) s = .next t ∧ s.SameMemory t ∧
       answers t (if y.ctk ≠ 0 ∧ y.ctk ∈ s.myDie.tokens then 1 else 0)) ∧
     (s.taskOf s.cur.die s.cur.core s.cur.slot = none → ∃ t, exec (.ctkchk d 0) s = .next t ∧ s.SameMemory t ∧ answers t 0))

/-- R383, R384, R387, R388, R397, R407, R408, R411: a write of GR.PUMP starts a stroke, waits or is refused; graphs and
versions are uploaded and deleted; the messages and the end of a stroke. -/
def Obligations.GraphsAndStrokes : Prop :=
  ∀ (s : State),
    let w := s.writer
    let d := s.cur.die
    let v := s.cur.val
    let key := s.writerAsid w * 256 + v.toNat / 2 ^ 56
    let addr := v.toNat / 64 % 2 ^ 50 * 64
    let refused := fun (t : State) (code : Nat) => (t.die d).grErr = BitVec.ofNat 8 code
    (s.graph d key = none → ∃ t, exec .pump s = .next t ∧ refused t 1 ∧
      (t.die d).posted = (s.die d).posted ++ [{ kind := 0x102, a := 1, b := v }] ∧ s.SameMemory t) ∧
    (∀ g, s.graph d key = some g → g.pending.isSome → ∃ t, exec .pump s = .next t ∧ refused t 2) ∧
    (∀ g, s.graph d key = some g → g.pending = none → addr = 0 →
      let token := 0x80000000 + v.toNat / 2 ^ 56 * 2 ^ 23 + ((s.die d).grStroke + 1).toNat % 2 ^ 23
      ((∀ n, s.stroke n key = none) → ∃ t, exec .pump s = .next t ∧ (t.stroke d key).map (·.token) = some token) ∧
      ((s.stroke d key).isSome → ∃ t, exec .pump s = .next t ∧ (t.graph d key).map (·.pending) = some (some ([], token, d)))) ∧
    (∀ g patch token, s.graph d s.cur.id = some g → g.run = none → g.pending = some (patch, token, d) →
      ∃ t, exec .pendingStrokeStart s = .next t ∧ (t.stroke d s.cur.id).map (·.token) = some token ∧
        (t.graph d s.cur.id).map (·.pending) = some none) ∧
    ((s.stroke d s.cur.id).isSome → s.strokeEnded s.cur.id = true →
      ∃ t, exec .strokeEnd s = .next t ∧ ∀ n, t.stroke n s.cur.id = none) ∧
    (∀ r, s.stroke d s.cur.id = some r → r.token = v.toNat →
      (∃ t q, exec .completionBitReceived s = .next t ∧ t.stroke d s.cur.id = some q ∧ s.cur.n ∈ q.bits) ∧
      (r.mode = .replay → ∃ t q, exec .guardStopBroadcast s = .next t ∧ t.stroke d s.cur.id = some q ∧ q.mode = .stopping ∧
        q.gstop = true)) ∧
    (∀ r, s.stroke d s.cur.id = some r → r.mode = .stopping → r.left = [] →
      ∃ t q, exec .handOff s = .next t ∧ t.stroke d s.cur.id = some q ∧ q.mode = .handedOff) ∧
    (s.stroke d s.cur.id = none → ∃ t, exec .traceVersionInstall s = .next t ∧ s.SameMemory t ∧ ∀ n ∈ s.graphDies s.cur.id,
      ∀ q ∈ (t.die n).traces, q.asid = s.cur.id / 256 → q.gid = s.cur.id % 256 → q.key = v → q.fresh = []) ∧
    (∀ h s1 img s2, s.readLineBy w addr = (some h, s1) → headerOk h = true →
      s1.readLinesBy w addr ((imageF h 32 4 + 63) / 64) = (some img, s2) →
      imageOk img (v.toNat / 2 ^ 56) (s2.inGang d (s2.contextCore w)) = true →
      (s2.graphBusy key = false → ∃ t, exec .graphUpload s = .next t ∧
        ∀ n, n < s2.dieCount → s2.inGang d (s2.contextCore w) n = true → t.graph n key = some (imageGraph img (s.writerAsid w))) ∧
      (s2.graphBusy key = true → ∃ t, exec .graphUpload s = .next t ∧ refused t 5)) ∧
    (∀ h s1, s.readLineBy w addr = (some h, s1) → headerOk h = false → ∃ t, exec .graphUpload s = .next t ∧ refused t 4) ∧
    (s.graphBusy key = false → ∃ t, exec .graphDelete s = .next t ∧ s.SameMemory t ∧ ∀ n, t.graph n key = none) ∧
    (s.graphBusy key = true → ∃ t, exec .graphDelete s = .next t ∧ refused t 5) ∧
    (∀ h s1 img s2 p, s.readLineBy w addr = (some h, s1) →
      s1.readLinesBy w addr ((64 + 32 * imageF h 16 4 + 16 * imageF h 20 4 + 63) / 64) = (some img, s2) →
      (s2.graph d key).isSome → imagePart img (imageF h 16 4) (imageF h 20 4) = some p → (s2.die d).gmRefine = true →
      d ∈ s2.graphDies key → imageF h 8 2 = d →
      ∀ q ∈ (s2.die d).traces, q.takes key img = true →
        ∃ t, exec .traceUpload s = .next t ∧ { q with fresh := (q.fresh.filter fun f => f.core != p.core) ++ [p] } ∈ (t.die d).traces)

/-! ### Landings -/

/-- R25, R26, R28, R36, R24, R31, R153, R259: a fixed-latency result, an entry of the landing record and a store land, each step
completing: the enabled bytes of the row, or the stored bytes, take their values, the latch of the unit takes the result
unless a change of slot has come between, and every other byte stays; a loaded row, a loaded template and a sync answer
land as well. (A template whose data are poisoned keeps its 16 bytes: the model's choice, log 86.) -/
def Obligations.Landings : Prop :=
  ∀ (s : State), s.cur.slot < 4 →
    let d := s.cur.die
    let c := s.cur.core
    let rowTakes := fun (t : State) (n : Nat) (data : Row) (bytes : BitVec 128) =>
      let a := s.here.part.rowByte n
      (∀ i, i < 128 → t.peek (.cistern d c (a + i)) 1 =
        if bytes.getLsbD i then rowNat data i 1 else s.peek (.cistern d c (a + i)) 1) ∧
      (∀ m, (∀ i, i < 128 → m ≠ .cistern d c (a + i)) → t.peek m 1 = s.peek m 1)
    let coreKept := fun (t : State) => s.OnlyCores t ∧ s.OtherCoresAlone t ∧
      t.here = { s.here with slots := t.here.slots, cistern := t.here.cistern, latch := t.here.latch } ∧
      ∀ j, j ≠ s.cur.slot → t.here.slot j = s.here.slot j
    (∀ l, s.me.lands.find? (fun l => l.id == s.cur.id && l.due ≤ s.clk) = some l → l.unit < 8 →
      let landed := { s.me with lands := s.me.lands.filter fun y => y.id != l.id }
      (∀ op ∈ [Instr.resultLanding, Instr.landingRecordEntryLands],
        (l.kind = .row → ∃ t, exec op s = .next t ∧ coreKept t ∧ t.me = landed ∧ rowTakes t l.row l.data l.bytes ∧
          t.here.latch = (if l.sw = s.here.sw then s.here.latch.setIfInBounds l.unit (some l.data) else s.here.latch)) ∧
        (l.kind = .latch → ∃ t, exec op s = .next t ∧ coreKept t ∧ t.me = landed ∧ s.SameMemory t ∧
          t.here.latch = (if l.sw = s.here.sw then s.here.latch.setIfInBounds l.unit (some l.data) else s.here.latch))) ∧
      (∀ op ∈ [Instr.cisternStorePerform, Instr.landingRecordEntryLands],
        l.kind = .store → s.here.cistern.poison = [] →
          ∃ t, exec op s = .next t ∧ t.me = landed ∧
            (∀ a, t.peek (.cistern d c a) 1 = match l.cells.reverse.find? fun x => x.1 == a with
              | some x => x.2.toNat
              | none => s.peek (.cistern d c a) 1) ∧
            (∀ m, (∀ a, m ≠ .cistern d c a) → t.peek m 1 = s.peek m 1) ∧
            t.here.latch = (if l.fromRec ∧ l.sw = s.here.sw then s.here.latch.setIfInBounds l.unit (some l.data)
              else s.here.latch) ∧
            (l.arrival = none → t.now = s.now ∧ t.here.arrivals = s.here.arrivals) ∧
            (∀ p n, l.arrival = some (p, n) →
              t.here.arrivals = s.here.arrivals ++
                [{ id := s.ids, slot := s.cur.slot, addr := p, n := n, cls := l.cls, gates := [] }] ∧
              t.now = s.now ++ [{ who := { die := d, core := c, slot := s.cur.slot, id := s.ids }, op := .vstaArrival }]))) ∧
    (∀ p n, s.findPend d c s.cur.slot s.cur.id = some p → p.answered = true → p.dest = .row n → p.late = none →
      s.here.rowHeld p = false →
      ∃ t, exec .variableLoadLanding s = .next t ∧ coreKept t ∧ rowTakes t n p.data p.bytes ∧
        t.me = { s.me with pend := s.me.pend.filter fun q => q.id != p.id } ∧
        ∃ r, (∀ i, i < 128 → rowNat r i 1 = if p.bytes.getLsbD i then rowNat p.data i 1 else 0) ∧
          t.here.latch = if p.sw = s.here.sw then s.here.latch.setIfInBounds 7 (some r) else s.here.latch) ∧
    (∀ e t0 rest, s.here.tmpl.get {} s.cur.n = e →
      (e.loading = (t0, none) :: rest → s.BecomesCore (exec .templateLoadLands s)
        { s.here with tmpl := s.here.tmpl.set s.cur.n { t := t0, poisoned := none, loading := rest } }) ∧
      (∀ a, e.loading = (t0, some a) :: rest → s.BecomesCore (exec .templateLoadLands s)
        { s.here with tmpl := s.here.tmpl.set s.cur.n { t := e.t, poisoned := some a, loading := rest } })) ∧
    (∀ p, s.findPend d c s.cur.slot s.cur.id = some p → p.answered = true → p.late = none →
      let goesOn := fun (t : State) (rs : List Nat) =>
        t.me.pend = s.me.pend.filter (fun q => q.id != p.id) ∧ t.me.lateX = s.me.lateX.filter (fun e => !rs.contains e.1) ∧
        (s.me.wait = .answer s.cur.id → t.me.st = .ready ∧ t.me.wait = .none ∧ t.me.pc = alignPc (s.me.pc + 4)) ∧
        (s.me.wait ≠ .answer s.cur.id → t.me = { s.me with x := t.me.x, pend := t.me.pend, lateX := t.me.lateX })
      (∀ (r : BitVec 6) (v : Word), p.dest = .x r.toNat → p.vals = [v] →
        ∃ t, exec .syncResultLands s = .next t ∧ s.OnlyMe t ∧ t.rx r = (if r = 0 then 0 else v) ∧
          (∀ q, q ≠ r → t.rx q = s.rx q) ∧ goesOn t [r.toNat]) ∧
      (∀ (r q : BitVec 6) (v w : Word), p.dest = .x2 r.toNat q.toNat → p.vals = [v, w] → r ≠ q →
        ∃ t, exec .syncResultLands s = .next t ∧ s.OnlyMe t ∧ t.rx r = (if r = 0 then 0 else v) ∧
          t.rx q = (if q = 0 then 0 else w) ∧ (∀ k, k ≠ r → k ≠ q → t.rx k = s.rx k) ∧
          goesOn t [r.toNat, q.toNat]))

/-! ### Engine words -/

/-- R86, R87, R88, R151, R152, R153, R154, R155: a patch word and ECMD amend a copy of the template at their index and issue it;
the entry itself stays; a load of the entry holds them, a poisoned or undecodable one traps. A command that can enter its queue,
and a vector word whose triggers can start, completes. TPLLD from the own cistern starts a load, TPLRD to it stores an entry,
EFENCE passes an empty queue, EBUSY tells whether the engine is at work. Outside strokes no memory changes but the bytes stored. -/
def Obligations.EngineWords : Prop :=
  ∀ (s : State), s.cur.slot < 4 →
    let calm := s.nodeOf s.cur.die s.cur.core s.cur.slot = none ∧ s.myDie.strokeRuns = false
    let fault := fun (e : Engine) (i sel : Nat) => s.raise 0x05 (BitVec.ofNat 64 (e.code * 256 + i)) (BitVec.ofNat 64 sel)
    let issued := fun (o : Out) (e : Engine) (i sel : Nat) (t0 : Template) =>
      (e ≠ .vec →
        (∀ err, decodeTemplate e t0 = .error err → o = fault e i sel) ∧
        (∀ op k, decodeTemplate e t0 = .ok op → s.copyCmd op (s.newCmd t0 i) = .ok k →
          (s.issueCmd s.cur.die s.cur.core e op k).isSome →
          ∃ t, o = .next t ∧ t.here.queued e = s.here.queued e ++ [{ k with id := s.ids, at_ := s.clk }] ∧
            t.here.tmpl = s.here.tmpl ∧ (∀ r, t.rx r = s.rx r) ∧ (calm → s.SameMemory t) ∧
            ((∀ b, op ≠ .mwait b) → t.me.pc = alignPc (s.me.pc + 4)) ∧
            (∀ b, op = .mwait b → t.me.pc = s.me.pc ∧ t.me.st = .blocked ∧ t.me.wait = .answer s.ids))) ∧
      (e = .vec →
        (decodeVec t0 = none → o = fault e i sel) ∧
        (∀ w ts n, decodeVec t0 = some w → s.rmFault w = false → s.me.regHazard w.regs [] s.clk = .clear →
          s.vTriggers w = .ok (ts, n) → n = 0 ∨ s.me.outstanding + n ≤ 8 →
          ∃ t later, o = .next t ∧ t.me.pc = alignPc (s.me.pc + 4) ∧ (∀ r, t.rx r = s.rx r) ∧ t.here.tmpl = s.here.tmpl ∧
            t.now = ts.map (fun y => { who := { s.cur with trig := some y.1 }, op := vCtor y.1.unit y.2 }) ++ later ∧
            (calm → s.SameMemory t ∧ later = s.now)))
    (∀ (i f : BitVec 6) (v : BitVec 16), ∀ e ∈ ([(Engine.vec, Instr.vx), (.mat, .mx), (.cpy, .cx), (.smp, .sx)] :
        List (Engine × (BitVec 6 → BitVec 6 → BitVec 16 → Instr))),
      let x := s.here.entry e.1 i.toNat
      let o := exec (e.2 i f v) s
      (x.loading ≠ [] → o = .next (s.block .word)) ∧
      (∀ a, x.loading = [] → x.poisoned = some a → o = s.raise 0x09 a 0) ∧
      (x.loading = [] → x.poisoned = none → amendPatch e.1 x.t f.toNat v.toNat = none → o = fault e.1 i.toNat f.toNat) ∧
      (∀ t0, x.loading = [] → x.poisoned = none → amendPatch e.1 x.t f.toNat v.toNat = some t0 →
        issued o e.1 i.toNat f.toNat t0)) ∧
    (∀ (e : Engine) (a b i : BitVec 6),
      let x := s.here.entry e i.toNat
      let o := exec (.ecmd e a b i) s
      let pair := fun (r : BitVec 6) => if r = 0 then none else some (s.rx r)
      s.me.regHazard [a, b] [] s.clk = .clear →
      (x.loading ≠ [] → o = .next (s.block .word)) ∧
      (∀ p, x.loading = [] → x.poisoned = some p → o = s.raise 0x09 p 0) ∧
      (x.loading = [] → x.poisoned = none → issued o e i.toNat 0x3F (amendPairs e x.t (pair a) (pair b)))) ∧
    (∀ (e : Engine) (a i : BitVec 6) (o : Nat), s.rx a = BitVec.ofNat 64 (0xFFFF000000000000 + o) → o % 16 = 0 → o < 2 ^ 20 →
      let l := Loc.cistern s.cur.die s.cur.core o
      let x := s.here.entry e i.toNat
      s.here.pendingBytes o (o + 16) = false → s.here.lateAt o (o + 16) = none →
      (s.here.held o 16 false = false → (s.me.dbgp = true → s.here.pendingWord o (o + 16) = none) →
        ∃ t due, exec (.tplld e a i) s = .next t ∧ s.OnlyCoresAndSteps t ∧ s.OtherCoresAlone t ∧ s.SameMemory t ∧
          t.me = s.me.passed ∧ (∀ j, j ≠ s.cur.slot → t.here.slot j = s.here.slot j) ∧
          t.here = { s.here with
            slots := t.here.slots
            tmpl := s.here.tmpl.set (e.code * 64 + i.toNat) { x with
              loading := x.loading ++ [(BitVec.ofNat 128 (s.peek l 16), if s.bad l 16 then some (s.rx a) else none)] } } ∧
          s.clk < due ∧
          t.agenda = s.agenda ++ [(due, { who := { s.cur with n := e.code * 64 + i.toNat }, op := .templateLoadLands })]) ∧
      (x.loading = [] → s.here.held o 16 true = false → s.bad l 16 = false →
        ∃ t, exec (.tplrd e a i) s = .next t ∧ s.Stores t l 16 x.t.toNat ∧ s.OnlyMemories t ∧ s.OthersAlone t ∧
          t.me = s.me.passed)) ∧
    (∀ (e : Engine) (a : BitVec 6),
      (s.here.queueUsed e = false → s.Becomes (exec (.efence e) s) s.me.passed) ∧
      (s.here.queueUsed e = true → s.Becomes (exec (.efence e) s) { s.me with st := .blocked, wait := .word }) ∧
      s.WritesX (exec (.ebusy e a) s) a (if s.here.queueUsed e || s.here.executing e then 1 else 0) 1)

/-! ### The vector engine -/

/-- R163, R164, R165, R166, R161, R162: each elementwise operation of the units alu and fma, and VDOT2, completes and writes, in
every enabled lane, the value of its lanes: an integer result modulo 2^w, a floating-point result rounded once, or the raw bits;
the other lanes of the row stay, the result lands 2 or 4 clk later, and nothing else changes. -/
def Obligations.VectorArithmetic : Prop :=
  ∀ (s : State) (v : VTrig), s.cur.slot < 4 → s.cur.trig = some v →
    let t := v.ety
    let w := 8 * t.w
    let lanes := fun (op : Instr) (n : Nat) (f : Nat → Nat → Nat → Nat) =>
      s.LandsLanes (exec op s) v n t.w v.on fun l => f (t.lane v.a l) (t.lane v.b l) (t.lane v.t l)
    let flag := fun (c : Bool) => if c then 2 ^ w - 1 else 0
    (t.fmt = none →
      (∀ e ∈ ([(Instr.vadd, 2, fun a _ x => a + x), (.vsub, 2, fun a _ x => a - x), (.vmin, 2, fun a _ x => min a x),
          (.vmax, 2, fun a _ x => max a x), (.vabs, 2, fun _ _ x => (x.natAbs : Int)), (.vneg, 2, fun _ _ x => -x),
          (.vmul, 4, fun a _ x => a * x), (.vfma, 4, fun a b x => a * b + x), (.vfms, 4, fun a b x => a * b - x),
          (.vfnma, 4, fun a b x => x - a * b), (.vmulh, 4, fun a _ x => a * x / 2 ^ w)] :
          List (Instr × Nat × (Int → Int → Int → Int))),
        lanes e.1 e.2.1 fun a b x => (e.2.2 (t.int a) (t.int b) (t.int x) % 2 ^ w).toNat) ∧
      (∀ e ∈ ([(Instr.vceq, fun a x => a == x), (.vcne, fun a x => a != x), (.vclt, fun a x => decide (a < x)),
          (.vcle, fun a x => decide (a ≤ x))] : List (Instr × (Int → Int → Bool))),
        lanes e.1 2 fun a _ x => flag (e.2 (t.int a) (t.int x)))) ∧
    (∀ f, t.fmt = some f →
      (∀ e ∈ ([(Instr.vadd, 2, fun a _ x => fadd f .rne a x), (.vsub, 2, fun a _ x => fadd f .rne a x.negate),
          (.vmin, 2, fun a _ x => fmin a x), (.vmax, 2, fun a _ x => fmax a x),
          (.vabs, 2, fun _ _ x => if x.neg then x.negate else x), (.vneg, 2, fun _ _ x => x.negate),
          (.vmul, 4, fun a _ x => fmul f .rne a x), (.vfma, 4, fun a b x => ffma f a b x),
          (.vfms, 4, fun a b x => ffma f a b x.negate),
          (.vfnma, 4, fun a b x => roundFp f .rne 0 (Fp.add .rne (Fp.mul a b).negate x)),
          (.vmulh, 4, fun a _ x =>
            let p := Fp.mul a x
            let r := roundFp f .rne 0 p
            if a.nonFinite || x.nonFinite then .nan else if r.nonFinite then .zero false
            else roundFp f .rne 0 (Fp.add .rne p r.negate))] : List (Instr × Nat × (Fp → Fp → Fp → Fp))),
        lanes e.1 e.2.1 fun a b x => f.encode (e.2.2 (f.decode a) (f.decode b) (f.decode x))) ∧
      (∀ e ∈ ([(Instr.vceq, fun a x => !a.isNan && !x.isNan && a.same x), (.vcne, fun a x => a.isNan || x.isNan || !a.same x),
          (.vclt, fun a x => !a.isNan && !x.isNan && a.lt x),
          (.vcle, fun a x => !a.isNan && !x.isNan && (a.lt x || a.same x))] : List (Instr × (Fp → Fp → Bool))),
        lanes e.1 2 fun a _ x => flag (e.2 (f.decode a) (f.decode x)))) ∧
    (∀ e ∈ ([(Instr.vand, fun a _ x => a &&& x), (.vor, fun a _ x => a ||| x), (.vxor, fun a _ x => a ^^^ x),
        (.vshl, fun a _ x => if w ≤ x then 0 else a * 2 ^ x), (.vshr, fun a _ x => if w ≤ x then 0 else a / 2 ^ x),
        (.vshra, fun a _ x => (((if 2 ^ (w - 1) ≤ a then (a : Int) - 2 ^ w else a) / 2 ^ min x w) % 2 ^ w).toNat),
        (.vsel, fun a b x => if a ≠ 0 then b else x), (.vmov, fun _ _ x => x),
        (.vclz, fun _ _ x => ((List.range w).find? fun i => x.testBit (w - 1 - i)).getD w),
        (.vpopc, fun _ _ x => ((List.range w).filter fun i => x.testBit i).length)] : List (Instr × (Nat → Nat → Nat → Nat))),
      lanes e.1 2 e.2) ∧
    (∀ r, t.fmt = none → t.w < 4 → r = (if t.w = 1 then 2 else 4) → s.LandsLanes (exec .vdot2 s) v 4 r v.on fun l =>
      ((t.int (t.lane v.a (2 * l)) * t.int (t.lane v.t (2 * l)) +
        t.int (t.lane v.a (2 * l + 1)) * t.int (t.lane v.t (2 * l + 1)) + laneW r v.b l) % 2 ^ (8 * r)).toNat) ∧
    (∀ f, t.fmt = some f → t.w = 2 → s.LandsLanes (exec .vdot2 s) v 4 4 v.on fun l =>
      let p := fun i => Fp.mul (f.decode (t.lane v.a i)) (f.decode (t.lane v.t i))
      fp32.encode (roundFp fp32 .rne 0 (sumProducts [p (2 * l), p (2 * l + 1), fp32.decode (laneW 4 v.b l)]))) ∧
    (t = .f32 → s.LandsLanes (exec .vdot2 s) v 4 4 v.on fun l =>
      fp32.encode (ffma fp32 (fp32.decode (laneW 4 v.a l)) (fp32.decode (laneW 4 v.t l)) (fp32.decode (laneW 4 v.b l)))) ∧
    (t.w = 4 → t ≠ .f32 → s.LandsLanes (exec .vdot2 s) v 4 4 v.on fun l =>
      ((t.int (laneW 4 v.a l) * t.int (laneW 4 v.t l) + t.int (laneW 4 v.b l)) % 2 ^ 32).toNat)

/-- R167, R168, R161: each function of the unit sfu completes: it delivers, 12 clk later, the rounded value of its function in the 16-bit
and integer types; in f32 a special value, a square root and the result of a special operand exactly, and else a code that
depends on the operation and the lane alone (the free choice of log 6, DESIGN CHOICE). -/
def Obligations.SpecialFunctions : Prop :=
  ∀ (s : State) (v : VTrig), s.cur.slot < 4 → s.cur.trig = some v →
    ∀ e ∈ ([(Instr.vrcp, .rcp), (.vrsq, .rsq), (.vsqrt, .sqrt), (.vexp2, .exp2), (.vlog2, .log2), (.vsin, .sin), (.vcos, .cos),
        (.vtanh, .tanh), (.vsigm, .sigm), (.verf, .erf)] : List (Instr × SfuOp)),
      ∃ f : Nat → Nat, s.LandsLanes (exec e.1 s) v 12 v.ety.w v.on (fun l => f (v.ety.lane v.t l)) ∧
        (v.ety ≠ .f32 → ∀ c, f c = v.ety.conv .rne 0 (sfuValue e.2 (v.ety.val c))) ∧
        (v.ety = .f32 → ∀ c,
          let x := fp32.decode c
          let r := sfuValue e.2 x
          ((∀ n m k, r ≠ .fin n m k) → f c = fp32.encode r) ∧
          ((e.2 = .sqrt ∨ ∀ n m k, x ≠ .fin n m k) → f c = fp32.encode (roundFp fp32 .rne 0 r)))

/-- R169, R170, R171, R172, R173, R174, R429, R431: the conversions of the unit cvt complete: they place, round and encode their
lanes, 4 clk later; VNFC counts non-finite lanes under its policy, or posts their event once, beside its result. -/
def Obligations.VectorConversions : Prop :=
  ∀ (s : State) (v : VTrig), s.cur.slot < 4 → s.cur.trig = some v →
    let t := v.ety
    let u := v.dety
    let x := fun l => t.val (t.lane v.t l)
    let placed := fun (op : Instr) (f : Nat → Nat) =>
      s.LandsLanes (exec op s) v 4 u.w (fun d => (v.source d).isSome) fun d => ((v.source d).map f).getD 0
    placed .vcvt (fun l => u.conv v.rm (v.rand l) (x l)) ∧
    (∀ f, blockFmt (v.ctl 3 5) = some f →
      placed .vsrnd (fun l => u.conv .rne 0 (f.decode (f.conv v.rm (v.rand l) (x l)))) ∧
      ∃ data bytes, s.Lands (exec .vqnt s) 4 .resultLanding (rowLanding v data bytes) ∧
        (∀ b, b < 128 → bytes.getLsbD b = decide (b / 64 = v.ctl 8 1)) ∧
        rowNat data (64 * v.ctl 8 1) 64 = encodeBlock (v.ctl 3 5) f v.rm (v.ctl 10 1 == 1)
          ((List.range (min f.n (t.lanes - v.ctl 11 7))).map fun i => (x (v.ctl 11 7 + i), v.rand (v.ctl 11 7 + i))) % 2 ^ 512) ∧
    (∀ f, blockFmt (blkFmt (rowNat v.t (64 * v.ctl 8 1) 64)) = some f →
      s.LandsLanes (exec .vdqnt s) v 4 u.w v.on fun l =>
        let j := v.ctl 11 7 + l
        if j < f.n then u.conv v.rm (v.rand j) (blkVal f (rowNat v.t (64 * v.ctl 8 1) 64) j) else 0) ∧
    (let bad := ((List.range u.lanes).filter fun d =>
        ((v.source d).map fun l => t.fmt.isSome && (x l).nonFinite).getD false).length
     (bad = 0 → placed .vnfc (fun l => u.conv .rne 0 (x l))) ∧
     (0 < bad → ∃ t' data bytes l, exec .vnfc s = .next t' ∧ l ∈ t'.me.lands ∧ l.id = s.ids ∧ l.due = s.clk + 4 ∧ l.data = data ∧
       l.bytes = bytes ∧ (∀ d, d < u.lanes → laneW u.w data d =
         (((v.source d).map fun i => u.conv .rne 0 (if s.here.nfPol && (x i).nonFinite then .zero false else x i)).getD 0) % 2 ^ (8 * u.w)) ∧
       (∀ b, b < 128 → bytes.getLsbD b = (v.source (b / u.w)).isSome) ∧
       (s.here.nfPol = true →
         let at_ := Loc.sync s.cur.die (s.here.nfOff.toNat * 1024 + 4 * v.ctl 0 8)
         s.Stores t' at_ 4 (min (2 ^ 32 - 1) (s.peek at_ 4 + bad)) ∧ t'.here.nfSeen = s.here.nfSeen) ∧
       (s.here.nfPol = false → s.SameMemory t' ∧ t'.here.nfSeen = true ∧
         (s.here.nfSeen = true → t'.myDie.posted = s.myDie.posted) ∧
         (s.here.nfSeen = false → ∃ a, t'.myDie.posted = s.myDie.posted ++ [{ kind := 0x100, a := a, b := BitVec.ofNat 64 s.clk }]))))

/-- R175, R176, R177, R178, R179, R180, R181: the operations of the units bsr and prm complete: the bit-stream unit loads its
windows, extracts fields and refills, and reports its position; the permutations, broadcasts, reductions, scans and compressions
of the unit prm. A NaN that a reduction or a scan passes on becomes the canonical one (R44, R162). -/
def Obligations.VectorStreamsAndPermutations : Prop :=
  ∀ (s : State) (v : VTrig), s.cur.slot < 4 → s.cur.trig = some v →
    let t := v.ety
    let n := t.lanes
    let b := s.me.bs
    let rows := s.here.part.rows
    let word := fun (r l : Nat) => if r < rows then laneW 4 (s.here.row r) l else 0
    let wid := fun l => min (laneW 4 v.t l % 64) 32
    let canonical := fun (x : Nat) => match t.fmt with
      | some f => if (f.decode x).isNan then f.encode .nan else x
      | none => x
    let refills := fun l => v.on l = true ∧ 32 ≤ vget b.cur l 0 + wid l
    (∃ bs, s.Becomes (exec .vbsi s) { s.me with bs := bs, xl := s.xlLeft } ∧ ∀ l, l < 32 →
      (v.on l = false → vget bs.win l 0 = vget b.win l 0 ∧ vget bs.cur l 0 = vget b.cur l 0 ∧ vget bs.ref l 0 = vget b.ref l 0) ∧
      (v.on l = true → vget bs.cur l 0 = 0 ∧
        (∀ r, v.trow = some r → vget bs.win l 0 = BitVec.ofNat 64 (word (r + 1) l * 2 ^ 32 + word r l) ∧
          vget bs.ref l 0 = r + 2) ∧
        (v.trow = none → vget bs.win l 0 = BitVec.ofNat 64 (laneW 4 v.t l) ∧ vget bs.ref l 0 = rows))) ∧
    (∃ bs, s.LandsLanes (exec .vbsr s) v 2 4 v.on (fun l =>
        let f := (vget b.win l 0).toNat / 2 ^ vget b.cur l 0 % 2 ^ wid l
        if t.signed ∧ 0 < wid l ∧ 2 ^ (wid l - 1) ≤ f then f + 2 ^ 32 - 2 ^ wid l else f) bs ∧ ∀ l, l < 32 →
      vget bs.cur l 0 = (if v.on l then (vget b.cur l 0 + wid l) % 32 else vget b.cur l 0) ∧
      (¬ refills l → vget bs.win l 0 = vget b.win l 0 ∧ vget bs.ref l 0 = vget b.ref l 0) ∧
      (refills l → vget bs.win l 0 =
          BitVec.ofNat 64 ((vget b.win l 0).toNat / 2 ^ 32 + word (vget b.ref l 0) l * 2 ^ 32) ∧
        vget bs.ref l 0 = min (vget b.ref l 0 + 1) rows)) ∧
    s.LandsLanes (exec .vbsq s) v 2 4 v.on (fun l => vget b.cur l 0 % 64 + vget b.ref l 0 % 2 ^ 14 * 2 ^ 16) ∧
    (let idx := fun l => t.index (t.lane v.t l)
     s.LandsLanes (exec .vperm s) v 6 t.w v.on (fun l => t.lane v.a (idx l % n).toNat) ∧
     s.LandsLanes (exec .vshuf s) v 6 t.w v.on (fun l =>
       let i := (idx l % (2 * n)).toNat
       if i < n then t.lane v.a i else t.lane v.b (i - n)) ∧
     s.LandsLanes (exec .vbcst s) v 6 t.w v.on (fun _ => t.lane v.a (idx 0 % n).toNat)) ∧
    (∀ e ∈ ([(Instr.vreda, t.addLane), (.vredm, t.maxLane)] : List (Instr × (Nat → Nat → Nat))),
      s.LandsLanes (exec e.1 s) v 6 t.w (fun _ => true) fun _ =>
        canonical ((treeFold e.2 7 ((List.range n).map fun l => if v.on l then some (t.lane v.t l) else none)).getD 0)) ∧
    s.LandsLanes (exec .vscan s) v 6 t.w (fun _ => true) (fun l =>
      match ((List.range (l + 1)).filter v.on).map fun i => t.lane v.t i with
      | [] => 0
      | a :: rest => rest.foldl t.addLane (canonical a)) ∧
    s.LandsLanes (exec .vcmpr s) v 6 t.w (fun _ => true) fun l =>
      ((((List.range n).filter fun i => v.on i && t.lane v.a i != 0).map fun i => t.lane v.t i)[l]?).getD 0

/-- R182, R183, R184, R185, R186, R187: the memory operations of the unit mem complete, and change no register x and no program
counter. Row, strided and indexed loads of the own cistern deliver its bytes, a row load from elsewhere and a block load have
theirs pending, and any other load has its result pending; stores of the own cistern perform 3 clk later, a row store elsewhere
performs at once, and a store without an enabled lane changes nothing; the arrival that follows a VSTA is sent once the writes
before it have ended. -/
def Obligations.VectorMemory : Prop :=
  ∀ (s : State) (v : VTrig), s.cur.slot < 4 → s.cur.trig = some v →
    let t := v.ety
    let w := t.w
    let d := s.cur.die
    let c := s.cur.core
    let on := fun b => v.mask.getLsbD (b / w)
    let own := fun (o : Nat) => BitVec.ofNat 64 (0xFFFF000000000000 + o)
    let free := fun (o n : Nat) (wr : Bool) => s.here.held o n wr = false ∧ s.here.pendingBytes o (o + n) = false ∧
      s.here.lateAt o (o + n) = none
    let clean := fun (o : Nat) => (s.me.dbgp = true → s.here.pendingWord o (o + w) = none) ∧ s.here.cistern.poisoned 8 o w = false
    let half := fun (h : Nat) => ∃ l, l < 64 / w ∧ v.mask.getLsbD (h * (64 / w) + l) = true
    let byte := fun (b : Nat) => BitVec.ofNat 8 (rowNat v.a b 1)
    let cls := v.c64.toNat % 16
    let store := fun (row : Nat) (cells : List (Nat × Byte)) (arr : Option (Word × Nat)) =>
      ({ id := 0, due := 0, kind := .store, unit := 7, row := row, data := v.a, bytes := v.bytes, cells := cells, sw := 0
         fromRec := false, cls := cls, pc := v.pc, arrival := arr } : Landing)
    let rowCells := fun (o : Nat) => ((List.range 128).filter on).map fun b => (o + b, byte b)
    let laneCells := fun (off : Nat → Nat) =>
      ((List.range t.lanes).filter v.on).flatMap fun l => (List.range w).map fun i => (off l + i, byte (l * w + i))
    (∀ op ∈ [Instr.vld, .vldg, .vgth, .vldt, .vst, .vstg, .vsct, .vsta],
      ∃ t', exec op s = .next t' ∧ (∀ r, t'.rx r = s.rx r) ∧ t'.me.pc = s.me.pc) ∧
    (∀ o, o % 64 = 0 → o + 128 ≤ 2 ^ 20 →
      (v.t64 = own o → (∀ h, h < 2 → half h → free (o + 64 * h) 64 false) →
        (∀ l, l < t.lanes → v.on l = true → clean (o + l * w)) →
        s.LandsLanes (exec .vld s) v 6 1 on fun b => s.peek (.cistern d c (o + b)) 1) ∧
      (v.t64 = own o → (half 0 ∨ half 1) → (∀ h, h < 2 → half h → free (o + 64 * h) 64 true) →
        s.Lands (exec .vst s) 3 .cisternStorePerform (store o (rowCells o) none)) ∧
      (∀ p, v.b64 = own o → s.vstaPhaser v = .ok p → (half 0 ∨ half 1) → (∀ h, h < 2 → half h → free (o + 64 * h) 64 true) →
        s.Lands (exec .vsta s) 3 .cisternStorePerform (store o (rowCells o) (some (v.t64, ((List.range 128).filter on).length))))) ∧
    (∀ off : Nat → Nat, (∀ l, l < t.lanes → v.on l = true → off l % w = 0 ∧ off l + w ≤ 2 ^ 20) →
      ((∀ l, l < t.lanes → v.on l = true →
          v.a64 + BitVec.ofNat 64 l * v.t64 = own (off l) ∧ free (off l) w false ∧ clean (off l)) →
        s.LandsLanes (exec .vldg s) v 6 w v.on fun l => s.peek (.cistern d c (off l)) w) ∧
      ((∀ l, l < t.lanes → v.on l = true → v.b64 + BitVec.ofNat 64 l * v.t64 = own (off l) ∧ free (off l) w true) →
        (∃ l, l < t.lanes ∧ v.on l = true) → s.Lands (exec .vstg s) 3 .cisternStorePerform (store 0 (laneCells off) none)) ∧
      ((∀ l, l < t.lanes → v.on l = true →
          v.a64 + BitVec.ofInt 64 (t.index (t.lane v.t l) * w) = own (off l) ∧ free (off l) w false ∧ clean (off l)) →
        s.here.vqTaken < 8 → s.LoadsRow (exec .vgth s) v fun b => s.peek (.cistern d c (off (b / w) + b % w)) 1) ∧
      ((∀ l, l < t.lanes → v.on l = true →
          v.b64 + BitVec.ofInt 64 (t.index (t.lane v.t l) * w) = own (off l) ∧ free (off l) w true) →
        (∃ l, l < t.lanes ∧ v.on l = true) → s.Lands (exec .vsct s) 3 .cisternStorePerform (store 0 (laneCells off) none))) ∧
    ((∀ l, l < t.lanes → v.on l = false) →
      (∀ op ∈ [Instr.vst, .vstg, .vsct], s.Becomes (exec op s) { s.me with xl := s.xlLeft }) ∧
      ∃ t', exec .vsta s = .next t' ∧ s.SameMemory t' ∧ t'.me = { s.me with xl := t'.me.xl } ∧
        t'.here.arrivals = s.here.arrivals ++
          [{ id := s.ids, slot := s.cur.slot, addr := v.t64, n := 0, cls := cls, gates := [] }]) ∧
    (∀ l : Nat → Loc, s.here.vqTaken < 8 → (half 0 ∨ half 1) →
      (∀ h, h < 2 → (v.t64 + BitVec.ofNat 64 (64 * h)).toNat / 2 ^ 40 ≠ 0xFFFF00) →
      l 1 = (l 0).plus 64 → s.syncWaits (l 0) = false → s.classWaits cls = false →
      (∀ i, i < t.lanes → v.on i = true → s.bad ((l 0).plus (i * w)) w = false) →
      ((∀ h, h < 2 → half h → s.operand (v.t64 + BitVec.ofNat 64 (64 * h)) 64 64 rightsR = .ok (.loc (l h))) →
        ((∃ a, l 0 = .host a) → s.myDie.strokeRuns = false) →
        s.LoadsRow (exec .vld s) v fun b => s.peek ((l 0).plus b) 1) ∧
      ((∀ h, h < 2 → half h → s.operand (v.t64 + BitVec.ofNat 64 (64 * h)) 64 64 rightsW = .ok (.loc (l h))) →
        ∃ t', exec .vst s = .next t' ∧
          (∀ b, b < 128 → on b = true → t'.peek ((l 0).plus b) 1 = rowNat v.a b 1) ∧
          (∀ m, (∀ b, b < 128 → on b = true → m ≠ (l 0).plus b) → t'.peek m 1 = s.peek m 1))) ∧
    (∀ op f, (op, f) ∈ [(Instr.vld, MemForm.row v.t64), (.vldg, .strided v.a64 v.t64), (.vgth, .indexed v.a64)] →
      ∀ ps, s.vLoadReady v f = .ok ps → s.fixedLoad f ps = false →
      ∃ t' p, exec op s = .next t' ∧ (s.myDie.strokeRuns = false → s.SameMemory t') ∧ p ∈ t'.me.pend ∧ p.id = s.ids ∧
        p.dest = (if v.nw then .latch else .row v.drow) ∧ p.bytes = v.bytes) ∧
    (∀ (f : BFmt) (code : Nat) (pl : Nat → Loc) (blk : Nat → Nat), blockFmt code = some f → s.here.vqTaken < 8 →
      (∀ k, (k = 0 ∨ ∃ l, l < t.lanes ∧ v.on l = true ∧ k = (v.firstElem + l) / f.n) →
        s.blockPlace v (v.t64 + BitVec.ofNat 64 (64 * k)) = .ok (.loc (pl k)) ∧ s.bad (pl k) 64 = false ∧
          s.peek (pl k) 64 = blk k ∧ blkFmt (blk k) = code ∧ ((∃ a, pl k = .host a) → s.myDie.strokeRuns = false)) →
      s.LoadsRow (exec .vldt s) v fun b =>
        let j := v.firstElem + b / w
        t.conv v.blockMode 0 (blkVal f (blk (j / f.n)) (j % f.n)) / 2 ^ (8 * (b % w))) ∧
    (∀ a, s.here.arrivals.find? (fun a => a.id == s.cur.id) = some a →
      (s.arrivalHeld a = true → exec .vstaArrival s = .next (s.later 1 { who := s.cur, op := .vstaArrival })) ∧
      (∀ o, s.arrivalHeld a = false → a.addr = BitVec.ofNat 64 (0xFFFF040000000000 + o * 64) → o < 2 ^ 24 →
        exec .vstaArrival s = .next { s with
          now := s.now ++ [{ who := { die := d, core := c, id := o * 64, n := 2 + 2 * a.id, val := BitVec.ofNat 64 a.n }
                             op := .engineArrival }] }))

/-! ### The matrix engine -/

/-- R198, R199, R200, R201, R202, R207, R215, R216, R217, R218, R219: each of these steps completes: a matrix command that starts
leaves the queue, runs for its time, ends no earlier than those before it in its lane, and has its effect: planes loaded, filled
and swapped, tiles zeroed, redundant mode set, the state reported. The end of a command frees its ranges, counts it, arrives at
its phaser and lets its waiting slot go on; a command on an empty tile ends in fault 0x47. -/
def Obligations.MatrixPlanesAndControl : Prop :=
  ∀ (s : State),
    let d := s.cur.die
    let c := s.cur.core
    let k := s.here
    let heads := fun (x : Cmd) (i : Instr) => k.mat.running.find? (fun r => r.cmd.id == s.cur.id) = none ∧
      k.matStarts s.clk = some (x, i) ∧ x.id = s.cur.id ∧ x.pos = 0
    let filled := fun (i : Instr) => ((k.matrixUses i).reads ++ (k.matrixUses i).accs).all (fun t => !(k.tile t).leftEmpty) = true
    let starts := fun (x : Cmd) (i : Instr) => heads x i ∧ filled i ∧ s.handleOk d c (cphOf x.t) = true
    let kept := fun (t : State) => s.OnlyCoresAndSteps t ∧ s.OtherCoresAlone t ∧ ∀ j, t.here.slot j = k.slot j
    let runs := fun (t : State) (x : Cmd) (clks : Nat) =>
      let ends := max (s.clk + clks) (k.mat.laneDone (lanesOf (templateOp x.t)))
      kept t ∧ t.here.mat.queue = k.mat.queue.filter (fun y => y.id != x.id) ∧
      (∃ r ∈ t.here.mat.running, r.cmd.id = x.id ∧ r.start = s.clk ∧ r.laneFree = s.clk + clks ∧ r.done = ends) ∧
      (ends, { who := { s.cur with n := 0 }, op := .matrixCommandComplete }) ∈ t.agenda
    (∀ (x : Cmd) (h : BitVec 16) (st : BitVec 8) (so : BitVec 16) (dp : BitVec 1) (kn : BitVec 7) (nc : BitVec 6),
      let n := nc.toNat + 1
      let m := mldsMeaning st.toNat so.toNat dp.toNat kn.toNat n
      let base := (k.tile st.toNat).lo + so.toNat * 64
      let blk := fun b => s.peek (.cistern d c (base + 64 * b)) 64
      starts x (.mlds h st so dp kn nc) → n ≤ 32 → m.check k = .ok () →
      ∀ f, blockFmt (blkFmt (blk 0)) = some f →
      (∀ b, b < blocksOf f (kn.toNat * n) → blkFmt (blk b) = blkFmt (blk 0) ∧ k.cistern.poisoned 8 (base + 64 * b) 64 = false) →
      ∃ t, exec (.mlds h st so dp kn nc) s = .next t ∧ runs t x (kn.toNat + 8) ∧ s.SameMemory t ∧
        t.here.mat.active = k.mat.active ∧ t.here.mat.shadow.depth = dp.toNat ∧ t.here.mat.shadow.kn = kn.toNat ∧
        t.here.mat.shadow.nc = n ∧ t.here.mat.shadow.had = false ∧ t.here.mat.shadow.valid = true ∧
        ∀ r j, r < kn.toNat → j < n → t.here.mat.shadow.cell r j = blkVal f (blk ((r * n + j) / f.n)) ((r * n + j) % f.n)) ∧
    (∀ (x : Cmd) (h : BitVec 16),
      (starts x (.mhad h) → ∃ t, exec (.mhad h) s = .next t ∧ runs t x 32 ∧ s.SameMemory t ∧ t.here.mat.active = k.mat.active ∧
        t.here.mat.shadow.had = true ∧ t.here.mat.shadow.valid = true ∧ t.here.mat.shadow.depth = 0 ∧
        t.here.mat.shadow.kn = 32 ∧ t.here.mat.shadow.nc = 32 ∧
        ∀ r j, r < 32 → j < 32 → t.here.mat.shadow.cell r j = .fin (popNat 5 (r &&& j) % 2 == 1) 1 0) ∧
      (starts x (.mswp h) → ∃ t, exec (.mswp h) s = .next t ∧ runs t x 1 ∧ s.SameMemory t ∧
        t.here.mat.active = k.mat.shadow ∧ t.here.mat.shadow = k.mat.active) ∧
      (∀ en : BitVec 1, starts x (.mred h en) → ∃ t, exec (.mred h en) s = .next t ∧ runs t x 1 ∧ s.SameMemory t ∧
        t.here.mat.redundant = (en == 1) ∧ t.here.mat.active = k.mat.active ∧ t.here.mat.shadow = k.mat.shadow) ∧
      (starts x (.mwait h) → ∃ t, exec (.mwait h) s = .next t ∧ runs t x 1 ∧ s.SameMemory t ∧
        t.here.mat.active = k.mat.active ∧ t.here.mat.shadow = k.mat.shadow) ∧
      (∀ (ot : BitVec 8) (oo : BitVec 16),
        let tile := k.tile ot.toNat
        let o := tile.lo + oo.toNat * 64
        starts x (.mstat h ot oo) → k.part.admits tile = true → tile.covers o 64 = true →
        ∃ t, exec (.mstat h ot oo) s = .next t ∧ runs t x 1 ∧ s.Stores t (.cistern d c o) 64 t.here.mat.statRecord ∧
          t.here.mat.completed = k.mat.completed ∧ t.here.mat.active = k.mat.active ∧ t.here.mat.shadow = k.mat.shadow) ∧
      (∀ ot : BitVec 8,
        let tile := k.tile ot.toNat
        let n := (tile.bytes + 511) / 512
        starts x (.mzro h ot) → tile.size ≠ 0 → k.part.admits tile = true →
        ∃ t, exec (.mzro h ot) s = .next t ∧ runs t x n ∧ s.Stores t (.cistern d c tile.lo) (min tile.bytes 32768) 0 ∧
          (64 < n → (s.clk + 64, { who := s.cur, op := .mzro h ot }) ∈ t.agenda))) ∧
    (∀ (x : Cmd) (i : Instr) (tile : Nat),
      ((∃ a b e f g j, i = .mlds a b e f g j) ∨ (∃ a b e f g j l m, i = .mxbw a b e f g j l m) ∨
        (∃ a b e f g j l m n o p q, i = .mstr a b e f g j l m n o p q)) →
      heads x i → ((k.matrixUses i).reads ++ (k.matrixUses i).accs).find? (fun t => (k.tile t).leftEmpty) = some tile →
      ∃ t, exec i s = .next t ∧ t.here.mat.lastFault = 0x47 ∧ t.here.mat.completed = (k.mat.completed + 1) % 2 ^ 64 ∧
        (∀ y ∈ t.here.mat.queue, y.id ≠ x.id) ∧ (∀ r ∈ t.here.mat.running, r.cmd.id ≠ x.id) ∧
        ∀ a, t.peek (.cistern d c a) 1 = s.peek (.cistern d c a) 1) ∧
    (∀ r, k.mat.running.find? (fun r => r.cmd.id == s.cur.id) = some r →
      (s.cur.n = 1 → r.laneFree ≤ s.clk → ∃ t, exec .matrixCommandComplete s = .next t ∧ kept t ∧ s.SameMemory t ∧
        t.here.mat = k.mat ∧ t.here.sb = k.sb.filter (fun e => !(e.cmd == r.cmd.id && !e.writes))) ∧
      (s.cur.n = 0 → r.done ≤ s.clk → r.cmd.slot < 4 → ∃ t, exec .matrixCommandComplete s = .next t ∧ s.OnlyCoresAndSteps t ∧
        s.OtherCoresAlone t ∧ s.SameMemory t ∧ t.here.mat.running = k.mat.running.filter (fun q => q.cmd.id != r.cmd.id) ∧
        t.here.mat.completed = (k.mat.completed + 1) % 2 ^ 64 ∧ t.here.sb = k.sb.filter (fun e => e.cmd != r.cmd.id) ∧
        (∀ n, ∀ e ∈ (t.here.tile n).holders, e.cmd ≠ r.cmd.id) ∧
        (cphOf r.cmd.t ≠ 0 → t.now = s.now ++ [{ who := { die := d, id := cphOf r.cmd.t * 64, val := BitVec.ofNat 64 r.bytes },
                                                  op := .engineArrival }]) ∧
        (∀ j, j < 4 → t.here.slot j = if j = r.cmd.slot ∧ (k.slot j).wait = .answer r.cmd.id then (k.slot j).proceed
          else k.slot j)))

/-- R203, R204, R205, R206, R208, R209, R210, R211, R212, R214: each of these commands completes its start: a product adds or
writes the rows that the active plane makes of its source, in redundant mode also in the second half of its tile, a drain
converts rows of an accumulator and counts the non-finite lanes of a gradient, and the transposing buffer is filled and read: each
on the rows or panels of its first micro-operation, whose successor is due when more remain, and on no other byte of memory. (The
second copy of a product accumulates onto its own old row: the model's reading, log 98.) -/
def Obligations.MatrixStreams : Prop :=
  ∀ (s : State) (x : Cmd) (h : BitVec 16),
    let d := s.cur.die
    let c := s.cur.core
    let k := s.here
    let at_ := fun (o : Nat) => Loc.cistern d c o
    let starts := fun (i : Instr) => k.mat.running.find? (fun r => r.cmd.id == s.cur.id) = none ∧
      k.matStarts s.clk = some (x, i) ∧ x.id = s.cur.id ∧ x.pos = 0 ∧
      ((k.matrixUses i).reads ++ (k.matrixUses i).accs).all (fun t => !(k.tile t).leftEmpty) = true ∧
      s.handleOk d c (cphOf x.t) = true
    let runs := fun (t : State) (i : Instr) (per units rate tail : Nat) =>
      let ends := max (s.clk + units * rate + tail) (k.mat.laneDone (lanesOf (templateOp x.t)))
      s.OtherCoresAlone t ∧ (∀ j, t.here.slot j = k.slot j) ∧ t.here.mat.active = k.mat.active ∧ t.here.mat.shadow = k.mat.shadow ∧
      t.here.mat.queue = k.mat.queue.filter (fun y => y.id != x.id) ∧
      (∃ r ∈ t.here.mat.running, r.cmd.id = x.id ∧ r.cmd.pos = min per units ∧ r.laneFree = s.clk + units * rate ∧ r.done = ends) ∧
      (per < units → (s.clk + per * rate, { who := s.cur, op := i }) ∈ t.agenda) ∧
      (ends, { who := { s.cur with n := 0 }, op := .matrixCommandComplete }) ∈ t.agenda
    let within := fun (t : State) (o n : Nat) => ∀ m, (∀ i, i < n → m ≠ at_ (o + i)) → t.peek m 1 = s.peek m 1
    let red := k.mat.redundant
    let per := if red then 32 else 64
    (∀ (ot : BitVec 8) (orow nr : BitVec 10) (acc : BitVec 1) (src : BitVec 2) (st : BitVec 8) (orient : BitVec 1)
        (so : BitVec 16) (kstr koff : BitVec 14) (kn : BitVec 7),
      let i := Instr.mstr h ot orow nr acc src st orient so kstr koff kn
      let a : MstrArgs :=
        { ot := ot.toNat, orow := orow.toNat, nr := nr.toNat + 1, acc := acc == 1, src := src.toNat, st := st.toNat
          bits := orient == 1, soff := if src = 1 then so.toNat % 64 else so.toNat, kstr := kstr.toNat, koff := koff.toNat
          kn := kn.toNat }
      let o := (k.tile ot.toNat).lo + orow.toNat * 128
      let p := k.mat.active
      let m := min a.nr per
      starts i → a.check k = .ok () → (acc = 1 → k.cistern.poison = []) →
      ∀ act : Nat → List Fp, (∀ r, r < m → a.activation k r = .ok (act r)) →
      ∃ t, exec i s = .next t ∧ runs t i per a.nr (if red then 2 else 1) 20 ∧
        (∀ r j, r < m → j < 32 →
          let sum := if j < p.nc then
              roundFp fp32 .rne 0 (sumProducts (((act r).zip (List.range p.kn)).map fun y => Fp.mul y.1 (p.cell y.2 j)))
            else .zero false
          let written := fun (b : Nat) =>
            t.peek (at_ b) 4 = fp32.encode (if acc = 1 then fadd fp32 .rne (fp32.decode (s.peek (at_ b) 4)) sum else sum)
          written (o + 128 * r + 4 * j) ∧ (red = true → written (o + (k.tile ot.toNat).half + 128 * r + 4 * j))) ∧
        (∀ y, (∀ e, e < 128 * m → y ≠ at_ (o + e) ∧ (red = true → y ≠ at_ (o + (k.tile ot.toNat).half + e))) →
          t.peek y 1 = s.peek y 1)) ∧
    (∀ (it : BitVec 8) (irow nr : BitVec 10) (ot : BitVec 8) (oo : BitVec 16) (fmt : BitVec 5) (raw : BitVec 1) (rm : BitVec 3)
        (hnorm rot sdiv grad : BitVec 1) (nfc : BitVec 8) (seed : BitVec 24),
      let i := Instr.mdrn h it irow nr ot oo fmt raw rm hnorm rot sdiv grad nfc seed
      let a : MdrnArgs :=
        { it := it.toNat, irow := irow.toNat, nr := nr.toNat + 1, ot := ot.toNat, ooff := oo.toNat, fmt := fmt.toNat
          raw := raw == 1, rm := (RMode.ofCode rm.toNat).getD .rne, hnorm := hnorm == 1, rot := rot == 1, sdiv := sdiv == 1
          grad := grad == 1, nfc := nfc.toNat, seed := BitVec.ofNat 64 seed.toNat }
      let src := fun r j => s.peek (at_ ((k.tile it.toNat).lo + (irow.toNat + r) * 128 + 4 * j)) 4
      let o := (k.tile ot.toNat).lo + oo.toNat * 64
      let count := (k.smp.finalCount it.toNat).getD 1
      let value := fun r j => (a.lane k.nfPol count (src r j)).1
      let rand := fun r j => rand32 a.seed ((irow.toNat + r) * 128 + j)
      let m := min a.nr per
      let bad := ((List.range (m * 32)).filter fun e => (a.lane k.nfPol count (src (e / 32) (e % 32))).2.2).length
      let ctr := k.nfOff.toNat * 1024 + 4 * nfc.toNat
      let counts := k.nfPol = true ∧ 0 < bad
      let drains := fun (t : State) (n : Nat) => exec i s = .next t ∧ runs t i per a.nr 1 16 ∧
        (∀ y, (∀ e, e < n → y ≠ at_ (o + e)) → (∀ e, e < 4 → counts → y ≠ .sync d (ctr + e)) → t.peek y 1 = s.peek y 1) ∧
        (counts → t.peek (.sync d ctr) 4 = min (2 ^ 32 - 1) (s.peek (.sync d ctr) 4 + bad)) ∧
        (k.nfPol = false → t.here.nfSeen = (k.nfSeen || decide (0 < bad)))
      starts i → a.check k = .ok () → a.stops k 0 m = none →
      (raw = 1 → fmt = 1 → ∃ t, drains t (m * 64) ∧
        ∀ r j, r < m → j < 32 → t.peek (at_ (o + (r * 32 + j) * 2)) 2 = bf16.encode (roundFp bf16 a.rm (rand r j) (value r j))) ∧
      (raw = 1 → fmt ≠ 1 → ∃ t, drains t (m * 128) ∧
        ∀ r j, r < m → j < 32 →
          t.peek (at_ (o + (r * 32 + j) * 4)) 4 =
            if sdiv = 1 ∨ hnorm = 1 ∨ (a.lane k.nfPol count (src r j)).2.2 ∧ k.nfPol = true then fp32.encode (value r j) else src r j) ∧
      (∀ f, raw = 0 → blockFmt fmt.toNat = some f →
        let blocks := if m = a.nr then blocksOf f (a.nr * 32) else m * 32 / f.n
        ∃ t, drains t (blocks * 64) ∧
        ∀ b, b < blocks → t.peek (at_ (o + b * 64)) 64 =
          encodeBlock fmt.toNat f a.rm a.rot ((List.range (min f.n (a.nr * 32 - b * f.n))).map fun e =>
            (value ((b * f.n + e) / 32) ((b * f.n + e) % 32), rand ((b * f.n + e) / 32) ((b * f.n + e) % 32))) % 2 ^ 512)) ∧
    (∀ (st : BitVec 8) (so : BitVec 16) (src : BitVec 1) (p0 np : BitVec 6) (rm : BitVec 3) (seed : BitVec 24),
      let i := Instr.mxbw h st so src p0 np rm seed
      let tile := k.tile st.toNat
      let n := np.toNat + 1
      let base := tile.lo + so.toNat * (if src = 1 then 128 else 64)
      let rounds := fun (t : State) (v : Nat → Fp) => ∀ e, e < 1024 → (t.here.panel p0.toNat (e / 32) (e % 32)) =
        bf16.encode (roundFp bf16 ((RMode.ofCode rm.toNat).getD .rne) (rand32 (BitVec.ofNat 64 seed.toNat) (e / 32 * 128 + e % 32)) (v e)) % 2 ^ 16
      starts i → tile.size ≠ 0 → k.part.admits tile = true →
      (src = 1 → tile.acc = true → tile.covers base (n * 4096) = true → k.cistern.poisoned 8 base 4096 = false →
        ∃ t, exec i s = .next t ∧ runs t i 1 n 32 8 ∧ s.SameMemory t ∧ rounds t fun e => fp32.decode (s.peek (at_ (base + 4 * e)) 4)) ∧
      (∀ f, src = 0 → tile.acc = false → tile.covers base 64 = true → base + 64 ≤ 2 ^ 20 → k.streamFmt base ≠ 0 → k.streamFmt base < 10 →
        blockFmt (k.streamFmt base) = some f → tile.covers base (blocksOf f (n * 1024) * 64) = true →
        (∀ b, b < blocksOf f 1024 → blkFmt (s.peek (at_ (base + 64 * b)) 64) = k.streamFmt base ∧
          k.cistern.poisoned 8 (base + 64 * b) 64 = false) →
        ∃ t, exec i s = .next t ∧ runs t i 1 n 32 8 ∧ s.SameMemory t ∧
          rounds t fun e => blkVal f (s.peek (at_ (base + 64 * (e / f.n))) 64) (e % f.n))) ∧
    (∀ (p0 np : BitVec 6) (orient : BitVec 1) (ot : BitVec 8) (oo : BitVec 16) (f : BitVec 1),
      let i := Instr.mxbl h p0 np orient ot oo f
      let tile := k.tile ot.toNat
      let n := np.toNat + 1
      let o := tile.lo + oo.toNat * 64
      let elem := fun e => if orient = 1 then k.panel (p0.toNat + e / 1024) (e % 32) (e / 32 % 32)
        else k.panel (p0.toNat + e / 1024) (e / 32 % 32) (e % 32)
      starts i → k.part.admits tile = true → tile.covers o (mxblBytes np.toNat (f == 1)) = true →
      (∀ w ∈ k.panelsBad, w / 256 ≠ p0.toNat) →
      (f = 0 → ∃ t, exec i s = .next t ∧ runs t i 1 n 32 8 ∧ within t o 2048 ∧
        ∀ e, e < 1024 → t.peek (at_ (o + 2 * e)) 2 = elem e) ∧
      (f = 1 → ∃ t, exec i s = .next t ∧ runs t i 1 n 32 8 ∧ within t o (if n = 1 then 2176 else 2112) ∧
        ∀ b, b < 33 → blkFmt (t.peek (at_ (o + 64 * b)) 64) = 1 ∧
          ∀ e, e < 31 → t.peek (at_ (o + 64 * b + 2 + 2 * e)) 2 = elem (b * 31 + e)))

/-! ### The copy engine -/

/-- R232, R235, R237, R238, R239, R240, R242, R243, R244, R245, R247, R248: each of these steps completes: copies leave the queue,
start, move line by line to every end of their destination, complete in order with their arrivals, enqueue their follow-on or
push their record; CPYX cancels the copies in flight that it names and arrives when they have stopped; a save that has waited 8 us
cancels the rest (R250). (Lines of a copy whose ends do not all lie in the own cistern move from a free clk on: the model's
choice, log 4.) -/
def Obligations.Copies : Prop :=
  ∀ (s : State) (h dt8 th : BitVec 16) (tl : BitVec 8) (xs : BitVec 2) (xa : Word),
    let d := s.cur.die
    let c := s.cur.core
    let k := s.here
    let id := s.cur.id
    let copies : List (Nat × Instr) := [(1, .cpy h tl dt8 xs xa), (2, .cpym h tl dt8 xs xa), (3, .cpyf h tl dt8 xs xa),
      (4, .cpyt h tl dt8 xs xa), (5, .cpyc h tl dt8 xs xa), (6, .cpyg h tl dt8 xs xa), (7, .cpyr h tl dt8 xs xa)]
    let ev := fun (i n : Nat) (op : Instr) => ({ who := { die := d, core := c, id := i, n := n }, op := op } : Ev)
    let done := fun (t : State) (n : Nat) (bytes : Nat) => if n = 0 then t.now = s.now else
      t.now = s.now ++ [{ who := { die := d, id := n * 64, val := BitVec.ofNat 64 bytes }, op := .engineArrival }]
    let gone := fun (t : State) => t.here.cpy.flight = k.cpy.flight.filter fun q => q.cmd.id != id
    let kept := fun (t : State) => s.OnlyCoresAndSteps t ∧ s.OtherCoresAlone t ∧ s.SameMemory t
    let auxAt := fun (x : Cmd) (n : Nat) => (ownOffset (descAux x.desc)).getD 0 + 4 * (n / x.rowLines)
    (∀ x, k.copyHead s.clk = some x →
      (templateOp x.t = 8 →
        exec .copyDequeue s = .next { s with now := ev x.id 0 (copyInstr x) :: { who := s.cur, op := .copyDequeue } :: s.now }) ∧
      (templateOp x.t ≠ 8 → ∃ t, exec .copyDequeue s = .next t ∧ s.OnlyCoresAndSteps t ∧ s.OtherCoresAlone t ∧
        t.here = { k with cpy := { k.cpy with
          queue := k.cpy.queue.filter fun y => y.id != x.id
          flight := k.cpy.flight ++ [{ cmd := x, start := 0, laneFree := 0, done := 0 }] } } ∧
        t.now = ev x.id 0 (copyInstr x) :: { who := s.cur, op := .copyDequeue } :: s.now)) ∧
    (∀ r, k.copyRun id = some r → r.stage = 0 → k.copyStarts r s.clk = true → r.fault = 0 → r.acks = 0 → r.lines = [] →
      ∀ e ∈ copies, templateOp r.cmd.t = e.1 →
      let x := r.cmd
      let hosts := if e.1 = 2 then s.myDie.groupCores (descXarg x.desc) else []
      let own := (ownOffset (descSrc x.desc)).isSome && (ownOffset (descDst x.desc)).isSome && hosts.all fun n => n == c
      (∀ bad, s.copyBad d c x = some bad → ∃ t, exec e.2 s = .next t ∧ t.here.copyRun id = none ∧
        (∀ a, t.peek (.cistern d c a) 1 = s.peek (.cistern d c a) 1) ∧
        (cphOf x.t ≠ 0 → s.handleOk d c (cphOf x.t) = true →
          { who := { die := d, id := cphOf x.t * 64, val := 0x52 }, op := .phaserErrorArrival : Ev } ∈ t.now)) ∧
      (∀ o, s.copyBad d c x = none → own = true → e.1 ≠ 5 → region (k.copySrc x 0) = .own o → k.ownLine x o false = true →
        k.cistern.poisoned 8 o 64 = false → (e.1 = 6 → k.cistern.poisoned 8 (auxAt x 0) 4 = false) →
        ∃ t q, exec e.2 s = .next t ∧ kept t ∧ t.here.copyRun id = some q ∧ q.stage = 1 ∧ q.start = s.clk ∧ q.hosts = hosts ∧
          q.cmd.pos = 1 ∧ q.lines = [(0, s.peek (.cistern d c o) 64)] ∧
          (s.clk + (x.lineCount + 2), ev x.id 0 .copyComplete) ∈ t.agenda) ∧
      (s.copyBad d c x = none → own = false → e.1 ≠ 5 →
        ∃ t q, exec e.2 s = .next t ∧ kept t ∧ t.here.copyRun id = some q ∧ q.stage = 1 ∧ q.start = s.clk ∧ q.hosts = hosts ∧
          q.cmd.pos = 0 ∧ q.lines = [] ∧ s.clk < q.done ∧ t.now = s.now ∧ t.agenda = s.agenda) ∧
      (∀ so ro, e.1 = 5 → s.copyBad d c x = none → x.staged = false → descRows x.desc = 1 →
        ownOffset (descSrc x.desc) = some so → ownOffset (descAux x.desc) = some ro →
        let b := descRowb x.desc
        k.cistern.poisoned 8 so b = false → k.cistern.poisoned 8 ro b = false →
        (∀ i j, i < max b (x.rowBlocks * 64) → j < b → so + i ≠ ro + j) →
        let row := encodeRow (k.f32List so (b / 4)) (k.f32List ro (b / 4))
        ∃ t q, exec e.2 s = .next t ∧ t.here.copyRun id = some q ∧ q.stage = 1 ∧ q.cmd.staged = true ∧
          (∀ j, j < b / 4 → t.peek (.cistern d c (ro + 4 * j)) 4 = (row.2[j]?).getD 0 % 2 ^ 32) ∧
          (∀ j, j < x.rowBlocks → t.peek (.cistern d c (so + 64 * j)) 64 = (row.1[j]?).getD 0 % 2 ^ 512) ∧
          ∀ m, (∀ j, j < b → m ≠ .cistern d c (ro + j)) → (∀ j, j < x.rowBlocks * 64 → m ≠ .cistern d c (so + j)) →
            t.peek m 1 = s.peek m 1)) ∧
    (∀ r, k.copyRun id = some r → r.stage = 1 → s.cur.n = 1 → r.fault = 0 → ∀ e ∈ copies, templateOp r.cmd.t = e.1 →
      let x := r.cmd
      let v := fun (l : Loc) (line : Nat) => if e.1 = 7 then combineLines (descXarg x.desc % 8) (s.peek l 64) line else line
      (∀ m line o, r.ownEnds c = true → r.lines = [(m, line)] → m + 2 + r.start = s.clk → x.lineCount ≤ m + 2 → e.1 ≠ 2 →
        region (x.dst m) = .own o → k.ownLine x o true = true → k.cistern.poisoned 8 o 64 = false →
        ∃ t q, exec e.2 s = .next t ∧ s.Stores t (.cistern d c o) 64 (v (.cistern d c o) line) ∧ t.here.copyRun id = some q ∧
          q = { r with lines := [], bytes := r.bytes + 64 }) ∧
      (∀ (l : Loc) (es : List Loc),
        let s1 := if k.lineOut r x.pos then s.modCore d c fun k => { k with cpy := { k.cpy with portOut := s.clk } } else s
        let q := { r with cmd := { x with pos := x.pos + 1 }, lines := [(x.pos, s.peek l 64)] }
        let s2 := s1.upRun d c id fun _ => q
        let s3 := if r.lineIn c x.pos then s2.modCore d c fun k => { k with cpy := { k.cpy with portIn := s.clk } } else s2
        r.ownEnds c = false → r.done ≤ s.clk → r.lines = [] → r.src = [] → x.pos < x.lineCount →
        (k.lineOut r x.pos = true → k.cpy.portOut ≠ s.clk) → (r.lineIn c x.pos = true → k.cpy.portIn ≠ s.clk) →
        (e.1 = 6 → k.cistern.poisoned 8 (auxAt x x.pos) 4 = false) →
        (∀ q ∈ k.cpy.flight, q.cmd.id = id → q = r) →
        s1.copyEnd d c x (k.copySrc x x.pos) rightsR = (.ok (.loc l), s1) → ((∃ a, l = .host a) → s.myDie.strokeRuns = false) →
        s.bad l 64 = false → s3.copyEnds d c q x.pos = (.ok (es.map .loc), s3) →
        (∀ m ∈ es, s.bad m 64 = false ∧ ∀ o, m ≠ .const o) → (e.1 ≠ 2 → es.length = 1) →
        (∀ m ∈ es, ∀ n ∈ es, m = n ∨ ∀ i j, i < 64 → j < 64 → m.plus i ≠ n.plus j) →
        ∃ t p, exec e.2 s = .next t ∧ (∀ m ∈ es, t.peek m 64 = v m (s.peek l 64) % 2 ^ 512) ∧
          (∀ n, (∀ m ∈ es, ∀ i, i < 64 → n ≠ m.plus i) → t.peek n 1 = s.peek n 1) ∧ t.here.copyRun id = some p ∧
          p.cmd.pos = x.pos + 1 ∧ p.lines = [] ∧ p.bytes = r.bytes + 64 * es.length)) ∧
    (∀ r, k.copyRun id = some r → r.fault = 0 → r.acks = 0 →
      let x := r.cmd
      (∀ o, r.stage = 1 → r.lines = [] → x.lineCount ≤ x.pos → (r.ownEnds c = true → r.done ≤ s.clk) →
        o < 2 ^ 16 → descDph x.desc = (if o = 0 then 0 else BitVec.ofNat 64 (0xFFFF040000000000 + o * 64)) →
        let n := max 1 r.hosts.length
        ∃ t q, exec .copyComplete s = .next t ∧ kept t ∧
          t.now = s.now ++ (if o = 0 then [] else List.replicate n
            { who := { die := d, core := c, id := o * 64, n := 3 + 2 * x.id, val := BitVec.ofNat 64 (r.bytes / n) }
              op := .engineArrival }) ++ [{ who := s.cur, op := .copyComplete }] ∧
          (templateOp x.t ≠ 4 → t.here.sb = k.sb.filter (fun e => e.cmd != x.id)) ∧
          (∀ e ∈ t.here.sb, e ∈ k.sb ∧ (e.cmd = x.id → e.writes = false)) ∧ (∀ n, ∀ e ∈ (t.here.tile n).holders, e.cmd ≠ x.id) ∧
          t.here.copyRun id = some q ∧ q.stage = 2 ∧ q.acks = if o = 0 then 0 else n) ∧
      (r.stage = 2 → templateOp x.t ≠ 3 → templateOp x.t ≠ 4 → ∃ t, exec .copyComplete s = .next t ∧ kept t ∧ gone t ∧
        done t (cphOf x.t) r.bytes) ∧
      (r.stage = 2 → templateOp x.t = 3 → ∃ t, exec .copyComplete s = .next t ∧ kept t ∧
        t.now = s.now ++ [{ who := s.cur, op := .cpyfFollowOnEnqueue }] ∧ (t.here.copyRun id).map (·.stage) = some 3) ∧
      (∀ o, r.stage = 2 → templateOp x.t = 4 → s.myDie.rdy.getLsbD 18 = true → region (descAux x.desc) = .own o → o + 64 ≤ 2 ^ 20 →
        k.cistern.poisoned 8 o 64 = false →
        let p := (s.upRun d c id fun r => { r with stage := 3 }).pushLocal d c (s.peek (.cistern d c o) 64) k.ctx.asid.toNat
        p.1.toNat < 2 ^ 32 → ∃ t, exec .copyComplete s = .next t ∧ t.here.copyRun id = none ∧ t.myDie.recs = p.2.myDie.recs) ∧
      (∀ i, r.stage = 3 → decodeTemplate .mat x.follow = .ok i →
        let y := { x with t := x.follow, idx := descXarg x.desc, desc := 0, follow := 0, pos := 0 }
        (s.issueCmd d c .mat i y).isSome = true → ∃ t, exec .cpyfFollowOnEnqueue s = .next t ∧ gone t ∧ s.SameMemory t ∧
          t.here.mat.queue = k.mat.queue ++ [{ y with id := s.ids, at_ := s.clk }] ∧ done t (cphOf x.t) r.bytes)) ∧
    (∀ x, k.copyHead s.clk = some x → x.id = id → s.handleOk d c h.toNat = true →
      let named := fun (q : Run) => th == 0 || cphOf q.cmd.t == th.toNat
      ∃ t, exec (.cpyx h th) s = .next t ∧ t.here.cpy.queue = k.cpy.queue.filter (fun y => y.id != id) ∧
        (∀ q ∈ t.here.cpy.flight, named q = true → q.fault ≠ 0 ∧ q.acks ≠ 0 ∧ q.lines = []) ∧
        (∀ a, t.peek (.cistern d c a) 1 = s.peek (.cistern d c a) 1) ∧
        ((∀ q ∈ k.cpy.flight, named q = true → q.acks = 0) → h ≠ 0 →
          { who := { die := d, id := h.toNat * 64, val := 0 }, op := .engineArrival } ∈ t.now) ∧
        ((k.cpy.flight.map (·.cmd.id)).Nodup → (∃ q ∈ k.cpy.flight, named q = true ∧ q.acks ≠ 0) →
          (h.toNat, (k.cpy.flight.filter named).map (·.cmd.id)) ∈ t.here.cpy.cancels)) ∧
    (∀ w, k.switch = some w → w.step = .closed → w.closedAt = s.cur.id →
      ∃ t, exec .copySaveTimeout s = .next t ∧ kept t ∧ (∀ q ∈ t.here.cpy.flight, q.stage = 0 ∨ q.fault ≠ 0) ∧
        t.here.cpy.aborted = k.cpy.aborted ++
          (k.cpy.flight.filter fun r => r.stage != 0 && r.fault == 0).map fun r => { r.cmd with pos := 0, aborted := true })

/-! ### The sampling and norm engine -/

/-- R302, R310, R311, R312, R313, R315, R316, R317, R318, R320, R321, R322: each of these steps completes: a sampling command that
starts leaves the queue, with every write counted before added to the sums, and has its effect: channels, sums, the alias table and
the registers; a sampled product starts, draws, accumulates, in redundant mode also in the second half of its tile, and is
checked; the end of a command frees its ranges and arrives at its phaser. -/
def Obligations.SampledProducts : Prop :=
  ∀ (s : State) (x : Cmd) (h : BitVec 16),
    let d := s.cur.die
    let c := s.cur.core
    let k := s.here
    let m := k.smp
    let m' := m.settle
    let at_ := fun (o : Nat) => Loc.cistern d c o
    let starts := fun (i : Instr) => k.smpStarts s.clk = some (x, i) ∧ x.id = s.cur.id ∧ k.smpFirst i = .ok () ∧
      s.handleOk d c (cphOf x.t) = true
    let kept := fun (t : State) => s.OtherCoresAlone t ∧ (∀ j, t.here.slot j = k.slot j) ∧ s.OnlyCoresAndSteps t
    let runs := fun (t : State) (n bytes : Nat) => kept t ∧ t.here.smp.queue = m.queue.filter (fun y => y.id != x.id) ∧
      (∃ r, t.here.smp.running = some r ∧ r.cmd.id = x.id ∧ r.done = s.clk + n ∧ r.bytes = bytes) ∧
      t.here.sb = k.sb.filter (fun e => !(e.cmd == x.id && !e.writes)) ∧
      t.agenda = s.agenda ++ [(s.clk + n, { who := s.cur, op := .samplingCommandComplete })]
    let sets := fun (o : Out) (n : Nat) (f : Sampling → Sampling) =>
      ∃ t, o = .next t ∧ runs t n 0 ∧ s.SameMemory t ∧
        t.here = { k with sb := t.here.sb, sbFreed := t.here.sbFreed
                          smp := { f m' with queue := t.here.smp.queue, running := t.here.smp.running } }
    (∀ (tau : BitVec 32) (nmin nmax : BitVec 24) (chk : BitVec 13), starts (.sset h tau nmin nmax chk) →
      sets (exec (.sset h tau nmin nmax chk) s) 1 fun m => { m with tau := tau, nmin := nmin, nmax := nmax, chk := chk }) ∧
    (∀ seed : Word, starts (.sseed h seed) → sets (exec (.sseed h seed) s) 1 fun m => { m with seed := seed }) ∧
    (∀ cnt : BitVec 32, starts (.scnt h cnt) → sets (exec (.scnt h cnt) s) 1 fun m => { m with cnt := cnt }) ∧
    (∀ ch : BitVec 2, starts (.ntoff h ch) → sets (exec (.ntoff h ch) s) 1 fun m =>
      { m with ch := m.ch.setIfInBounds ch.toNat { vget m.ch ch.toNat {} with act := false } }) ∧
    (∀ (ch : BitVec 2) (tl : BitVec 8) (off len : BitVec 16) (fmt : BitVec 2) (mode : BitVec 1) (ncol : BitVec 15)
        (voff : BitVec 14) (vlen : BitVec 15),
      let i := Instr.nten h ch tl off len fmt mode ncol voff vlen
      let tile := k.tile tl.toNat
      let o := tile.lo + off.toNat * 64
      starts i → k.part.admits tile = true → tile.covers o (len.toNat * 64) = true → len ≠ 0 →
      m.overlaps ch.toNat voff.toNat vlen.toNat = false →
      ∃ t, exec i s = .next t ∧ runs t ((vlen.toNat + 15) / 16 + 1) 0 ∧ s.SameMemory t ∧
        t.here.smp.ch = m'.ch.setIfInBounds ch.toNat
          { bad := false, act := true, fmt := fmt.toNat, rows := mode == 1, vlen := vlen.toNat, voff := voff.toNat,
            ncol := ncol.toNat, lo := o, len := len.toNat * 64 } ∧
        ∀ n, t.here.smp.sums.get 0 n = if voff.toNat ≤ n ∧ n < voff.toNat + vlen.toNat then 0 else m'.sums.get 0 n) ∧
    (∀ (ch : BitVec 2) (ot : BitVec 8) (oo : BitVec 16) (clr : BitVec 1),
      let i := Instr.ntrd h ch ot oo clr
      let y := vget m.ch ch.toNat {}
      let tile := k.tile ot.toNat
      let o := tile.lo + oo.toNat * 64
      let n := (y.vlen * 4 + 63) / 64 * 64
      starts i → y.vlen ≠ 0 → k.part.admits tile = true → tile.covers o n = true →
      (∀ j ∈ m.sumsBad, ¬(y.voff ≤ j ∧ j < y.voff + y.vlen)) →
      ∃ t, exec i s = .next t ∧ runs t ((y.vlen + 15) / 16 + 2) n ∧
        (∀ j, j < n / 4 → t.peek (at_ (o + 4 * j)) 4 = if j < y.vlen then (m'.sums.get 0 ((y.voff + j) % 16384)).toNat else 0) ∧
        (∀ l, (∀ j, j < n → l ≠ at_ (o + j)) → t.peek l 1 = s.peek l 1) ∧
        ∀ j, t.here.smp.sums.get 0 j = if clr = 1 ∧ y.voff ≤ j ∧ j < y.voff + y.vlen then 0 else m'.sums.get 0 j) ∧
    (∀ (ta : BitVec 8) (ao : BitVec 16) (tb : BitVec 8) (bo : BitVec 16) (n : BitVec 15) (tt : BitVec 8) (to_ : BitVec 16),
      let i := Instr.alb h ta ao tb bo n tt to_
      let a := k.tileAt ta.toNat ao.toNat
      let b := k.tileAt tb.toNat bo.toNat
      let o := k.tileAt tt.toNat to_.toNat
      let len := n.toNat
      let w := (List.range len).map fun j => pairWeight (s.peek (at_ (a + 4 * j)) 4) (s.peek (at_ (b + 4 * j)) 4)
      starts i → allOf [k.smpInside ta.toNat none a (4 * len), k.smpInside tb.toNat none b (4 * len),
        k.smpInside tt.toNat (some false) o (16 * len)] = .ok () → rangesMeet a (4 * len) o (16 * len) = false →
      rangesMeet b (4 * len) o (16 * len) = false → k.cistern.poisoned 8 a (4 * len) = false → k.cistern.poisoned 8 b (4 * len) = false →
      (∀ j, j < len → badNorm (s.peek (at_ (a + 4 * j)) 4) = false ∧ badNorm (s.peek (at_ (b + 4 * j)) 4) = false) →
      ∃ t, exec i s = .next t ∧ runs t (2 * len + 24) (16 * len) ∧ s.Stores t (at_ o) (16 * len) (tableBytes (aliasTable w)) ∧
        t.here.smp.tvalid = false ∧ t.here.smp.sum = BitVec.ofNat 64 (fp64.encode (aliasTable w).2.2)) ∧
    (∀ (ot : BitVec 8) (oo : BitVec 16),
      let o := k.tileAt ot.toNat oo.toNat
      let inside := k.part.admits (k.tile ot.toNat) = true ∧ (k.tile ot.toNat).covers o 64 = true
      (starts (.svarStore h ot oo) → inside → ∃ t, exec (.svarStore h ot oo) s = .next t ∧ runs t 3 64 ∧
        s.Stores t (at_ o) 64 (m'.varRecord % 2 ^ 512)) ∧
      (starts (.svarLoad h ot oo) → inside → k.cistern.poisoned 8 o 64 = false → recordLegal (s.peek (at_ o) 64) = true →
        sets (exec (.svarLoad h ot oo) s) 3 fun m =>
          { m with sum := BitVec.ofNat 64 (s.peek (at_ o) 8), cnt := BitVec.ofNat 32 (s.peek (at_ (o + 8)) 4),
                   var := BitVec.ofNat 64 (s.peek (at_ (o + 16)) 8), q := BitVec.ofNat 64 (s.peek (at_ (o + 24)) 8),
                   seed := BitVec.ofNat 64 (s.peek (at_ (o + 40)) 8), tau := BitVec.ofNat 32 (s.peek (at_ (o + 48)) 4),
                   nmin := BitVec.ofNat 24 (s.peek (at_ (o + 52)) 4), nmax := BitVec.ofNat 24 (s.peek (at_ (o + 56)) 4),
                   chk := BitVec.ofNat 13 (s.peek (at_ (o + 60)) 2) })) ∧
    (∀ (ot : BitVec 8) (start asrc : BitVec 1) (p0 : BitVec 6) (ta : BitVec 8) (ao : BitVec 16) (tb : BitVec 8) (bo : BitVec 16)
        (tt : BitVec 8) (to_ : BitVec 16) (n : BitVec 15),
      let i := Instr.smpl h ot start asrc p0 ta ao tb bo tt to_ n
      let a : SmplArgs := { ot := ot.toNat, start := start == 1, raw := asrc == 1, p0 := p0.toNat, at_ := ta.toNat,
                            aoff := ao.toNat, bt := tb.toNat, boff := bo.toNat, tt := tt.toNat, toff := to_.toNat, n := n.toNat }
      let acc := (k.tile ot.toNat).lo
      let next := fun (n kind val : Nat) => (s.clk + n, ({ who := { s.cur with n := kind, val := BitVec.ofNat 64 val }, op := i } : Ev))
      let half := (k.tile ot.toNat).half
      let red := k.mat.redundant
      let outside := fun (t : State) => ∀ l, (∀ j, j < 4096 → l ≠ at_ (acc + j) ∧ (red = true → l ≠ at_ (acc + half + j))) →
        t.peek l 1 = s.peek l 1
      (starts i → m.running = none → a.check k = .ok () →
        ∃ t, exec i s = .next t ∧ kept t ∧ outside t ∧ t.here.smp.statTile = ot.toNat ∧
          (start = 1 → (∀ j, j < 4096 → t.peek (at_ (acc + j)) 1 = 0 ∧ (red = true → t.peek (at_ (acc + half + j)) 1 = 0)) ∧
            t.here.smp.cnt = 0 ∧ t.here.smp.q = 0) ∧
          (start = 0 → s.SameMemory t ∧ t.here.smp.cnt = m.cnt ∧ t.here.smp.q = m.q) ∧
          (t.here.smp.cnt.toNat < m.nmax.toNat → t.here.smp.run = true ∧ t.here.smp.done = false ∧
            t.agenda = s.agenda ++ [next 4 0 0]) ∧
          (m.nmax.toNat ≤ t.here.smp.cnt.toNat → t.here.smp.run = false ∧ t.here.smp.done = true ∧ t.here.smp.reason = 2 ∧
            t.agenda = s.agenda ++ [(s.clk + 2, { who := s.cur, op := .samplingCommandComplete })])) ∧
      (∀ r, m.running = some r → r.cmd.id = s.cur.id →
        (∀ p, s.cur.n = 0 → a.draw k m.cnt.toNat = .ok p → m.cnt.toNat + 1 < 2 ^ 32 → ∃ t, exec i s = .next t ∧ kept t ∧ s.SameMemory t ∧
          t.here.smp = { m with cnt := m.cnt + 1 } ∧
          t.agenda = s.agenda ++ [next 6 1 p] ++
            (if m.checks (m.cnt.toNat + 1) || (k.closed && (m.cnt.toNat + 1) % m.chk.toNat = 0) then [] else [next 1 0 0])) ∧
        (∀ p, s.cur.n = 1 → s.cur.val = BitVec.ofNat 64 p → p < 2 ^ 15 → (red = true → 4096 ≤ half) → k.closed = false →
          k.cistern.poisoned 8 acc 4096 = false →
          let o := a.operands k p
          let norm := fun (xs : List Fp) => to64 (sumProducts (xs.map fun x => Fp.mul x x))
          let landed := r.cmd.pos + 1
          ∃ t, exec i s = .next t ∧ kept t ∧
            (∀ u v, u < 32 → v < 32 →
              let b := 128 * u + 4 * v
              t.peek (at_ (acc + b)) 4 = fp32.encode (fadd fp32 .rne (fp32.decode (s.peek (at_ (acc + b)) 4))
                (roundFp fp32 .rne 0 (Fp.mul (Fp.mul ((o.1[u]?).getD .nan) ((o.2.1[v]?).getD .nan)) o.2.2))) ∧
              (red = true → t.peek (at_ (acc + half + b)) 4 = t.peek (at_ (acc + b)) 4)) ∧ outside t ∧
            t.here.smp.q = BitVec.ofNat 64 (fp64.encode (fadd fp64 .rne (fp64.decode m.q.toNat)
              (to64 (Fp.mul (Fp.mul (norm o.1) (norm o.2.1)) (Fp.mul o.2.2 o.2.2))))) ∧ t.here.smp.cnt = m.cnt ∧
            t.agenda = s.agenda ++ (if m.cnt.toNat ≤ landed ∧ m.checks landed = true then [next 34 2 0] else [])) ∧
        (s.cur.n = 2 → k.closed = false →
          let v := a.verdict k m.cnt.toNat
          ∃ t, exec i s = .next t ∧ kept t ∧ s.SameMemory t ∧ (∀ y, v.1 = some y → t.here.smp.var = BitVec.ofNat 64 (fp64.encode y)) ∧
            (v.2 = none → t.here.smp.run = m.run ∧ t.agenda = s.agenda ++ [next 1 0 0]) ∧
            (∀ reason, v.2 = some reason → t.here.smp.reason = reason ∧ t.here.smp.run = false ∧ t.here.smp.done = true ∧
              t.here.smp.finalCount ot.toNat = some m.cnt.toNat ∧
              t.agenda = s.agenda ++ [(s.clk + 2, { who := s.cur, op := .samplingCommandComplete })])))) ∧
    (∀ r, m.running = some r → r.cmd.id = s.cur.id → r.done ≤ s.clk → ∃ t, exec .samplingCommandComplete s = .next t ∧ kept t ∧
      s.SameMemory t ∧ t.here.smp.running = none ∧ t.here.smp.run = false ∧ t.here.sb = k.sb.filter (fun e => e.cmd != r.cmd.id) ∧
      (∀ n, ∀ e ∈ (t.here.tile n).holders, e.cmd ≠ r.cmd.id) ∧
      (cphOf r.cmd.t ≠ 0 → t.now = s.now ++ [{ who := { die := d, id := cphOf r.cmd.t * 64, val := BitVec.ofNat 64 r.bytes },
                                                op := .engineArrival }]) ∧
      (∀ a1 a2 a3 a4 a5 n a7 a8, decodeTemplate .smp r.cmd.t = .ok (.alb a1 a2 a3 a4 a5 n a7 a8) →
        t.here.smp.tvalid = true ∧ t.here.smp.statK = n.toNat))

/-! ### The trace players -/

/-- R396, R397, R400, R406, R407, R409: each step of a player completes: what it does with the entry at its cursor, which it passes
or at which it stays blocked for one more clk: it issues a template, waits for a phase or a node, arrives, calls, completes a
node, passes marks and guards, and ends; a cancelled player ends with its nodes discarded; a call not yet done counts one more clk
of its entry. -/
def Obligations.Players : Prop :=
  ∀ (s : State) (e : TraceEntry) (g : Graph) (r : Stroke),
    let d := s.cur.die
    let c := s.cur.core
    let k := s.here
    let p := k.player
    (k.awaitsCall = true →
      s.BecomesCore (exec .playerCall s) { k with player := { p with part := p.part.map fun t => t.stallAt (p.cur - 1) } }) ∧
    (k.plays = some e → s.graph d p.gid = some g → g.run = some r →
    let on := { k with player := { p with cur := p.cur + 1 } }
    let off := { k with player := { p with part := p.part.map fun t => t.stallAt p.cur } }
    let asks := fun (t : State) => r.token ≠ 0 → r.token ∈ t.myDie.toSet
    let l := Loc.sync d ((g.phbase + e.ph) * 64)
    let q := s.phaser l
    (s.playerCancelled d c = false →
      (∀ x ∈ [(TraceKind.mark, Instr.playerMark), (.guard, .playerGuard)], e.kind = x.1 → s.BecomesCore (exec x.2 s) on) ∧
      (e.kind = .waitn → s.BecomesCore (exec .playerWaitn s) (if r.bits.contains e.node then on else off)) ∧
      (s.syncWaits l = true → ∀ x ∈ [(TraceKind.phwait, Instr.playerPhwait), (.pharv, .playerPharv)], e.kind = x.1 →
        s.BecomesCore (exec x.2 s) off) ∧
      (s.syncWaits l = false → s.bad l 64 = true → ∀ x ∈ [(TraceKind.phwait, Instr.playerPhwait), (.pharv, .playerPharv)],
        e.kind = x.1 → ∃ t, exec x.2 s = .next t ∧ asks t ∧ t.here = off) ∧
      (e.kind = .phwait → s.syncWaits l = false → s.bad l 64 = false →
        (q.valid = true → phasePassed q.ph e.b.toNat = true → (e.b.toNat % 2 ^ 32 ≠ q.errPh ∨ BitVec.ofNat 64 q.lcode = 0#64) →
          s.BecomesCore (exec .playerPhwait s) on) ∧
        (q.valid = true → phasePassed q.ph e.b.toNat = false → s.BecomesCore (exec .playerPhwait s) off) ∧
        ((q.valid = false ∨ (phasePassed q.ph e.b.toNat = true ∧ e.b.toNat % 2 ^ 32 = q.errPh ∧ BitVec.ofNat 64 q.lcode ≠ 0#64)) →
          ∃ t, exec .playerPhwait s = .next t ∧ asks t ∧ t.here = off ∧ s.SameMemory t)) ∧
      (e.kind = .pharv → s.syncWaits l = false → s.bad l 64 = false →
        let arr := (q.arr + 1) % 2 ^ 16
        let byt := (q.byt + e.b.toNat % 2 ^ 40) % 2 ^ 64
        let closes := q.ns + q.nsw ≤ arr ∧ q.exp ≤ byt ∧ 0 < q.ns + q.nsw + q.exp
        (q.valid = false → s.BecomesCore (exec .playerPharv s) on) ∧
        (q.valid = true → s.myDie.waiters = [] → ∃ t, exec .playerPharv s = .next t ∧ t.here = on ∧
          (¬ closes → (t.phaser l).ph = q.ph ∧ (t.phaser l).arr = arr ∧ (t.phaser l).byt = byt) ∧
          (closes → (t.phaser l).ph = (q.ph + 1) % 2 ^ 32 ∧ (t.phaser l).arr = arr - (q.ns + q.nsw)))) ∧
      (e.kind = .template →
        let eng := Engine.ofCode (BitVec.ofNat 2 e.aux)
        ((∀ i, decodeTemplate eng e.a ≠ .ok i) → ∃ t, exec .playerTemplate s = .next t ∧ asks t ∧ t.here = off) ∧
        (∀ i x, decodeTemplate eng e.a = .ok i →
          s.agentCopy i { id := 0, t := e.a, idx := e.b.toNat % 64, slot := 0, at_ := s.clk, token := r.token } = .ok (some x) →
          ((s.issueCmd d c eng i x).isSome = true → eng ≠ .vec → ∃ t, exec .playerTemplate s = .next t ∧ s.SameMemory t ∧
            t.here.queued eng = k.queued eng ++ [{ x with id := s.ids, at_ := s.clk }] ∧ t.here.player = on.player) ∧
          (s.issueCmd d c eng i x = none → s.BecomesCore (exec .playerTemplate s) off))) ∧
      (∀ n, e.kind = .call → g.nodes[e.node]? = some n →
        let room := k.prefetch.length < 2 ∧ s.myDie.rdy.getLsbD 18 = true ∧ s.myDie.recs.entries.length < 65536
        (¬room → s.BecomesCore (exec .playerCall s) off) ∧
        (room → ∃ t h, exec .playerCall s = .next t ∧ s.SameMemory t ∧ s.myDie.recs.find h = none ∧
          t.myDie.recs.find h = some { g.formRecord r p.gid e.node n 0 with st := .prefetched } ∧
          t.here = { k with prefetch := k.prefetch ++ [h], player := { p with call := some h, cur := p.cur + 1 } })) ∧
      (e.kind = .done → p.stopping = false → r.nodes.find e.node = none → ∃ t y, exec .playerDone s = .next t ∧ s.SameMemory t ∧
        t.here = on ∧ t.stroke d p.gid = some y ∧ y.nodes.find e.node = some .done ∧ e.node ∈ y.bits) ∧
      (∀ part, e.kind = .end_ → p.part = some part → s.waitingPart d c = none → ∃ t y, exec .playerEnd s = .next t ∧
        t.here.player = { p with act := false, stopping := false, stopped := false, call := none } ∧
        t.stroke d p.gid = some y ∧ part.core ∉ y.left ∧ y.issued = r.issued ++ [{ part with entries := part.entries.take p.cur }])) ∧
    (∀ part, s.playerCancelled d c = true → p.part = some part → r.todo = [] → (∀ x ∈ s.myDie.graphs.entries, x.2.run.isSome → x.1 = p.gid) →
      ∃ t y, exec .playerEnd s = .next t ∧ t.here.player.act = false ∧ t.stroke d p.gid = some y ∧ part.core ∉ y.left ∧
        ∀ n ∈ part.nodes, (y.nodes.find n).isSome))

/-! ### The macro unit -/

/-- R414, R415, R416, R417, R423: the step of each micro-operation completes, with its effect on the running expansion: the
micro-registers, the micro-PC, the micro-loops, the waits, the arrivals, the commands that it issues, and the update of elements;
an illegal one and a micro-PC outside the store end it with their codes, and one whose condition does not hold leaves the machine
as it is. -/
def Obligations.MicroOperations : Prop :=
  ∀ (s : State) (x : Expanding) (w : Word),
    let d := s.cur.die
    let c := s.cur.core
    let k := s.here
    k.microWord = some (x, w) → k.macro_.poisoned.contains x.upc = false →
    let ops : List (Nat × (Word → Word → Word) × Instr) := [(0, (· + ·), .microAdd), (1, (· - ·), .microSub), (2, (· * ·), .microMul),
      (3, fun a b => a <<< (b.toNat % 64), .microShl), (4, fun a b => a >>> (b.toNat % 64), .microShr), (5, (· &&& ·), .microAnd),
      (6, (· ||| ·), .microOr), (7, fun a b => if b.ult a then b else a, .microMinn), (8, fun a b => if a.ult b then b else a, .microMaxn),
      (9, fun a b => if b = 0 then BitVec.allOnes 64 else BitVec.ofNat 64 (a.toNat / b.toNat), .microDivn)]
    let becomes := fun (o : Out) (y : Expanding) => s.BecomesCore o { k with macro_ := { k.macro_ with run := some y } }
    let faults := fun (o : Out) (code : Nat) => becomes o { x with ended := true, code := if x.code = 0 then code else x.code }
    let mr := fun (n : Nat) => if n = 0 then (0 : Word) else vget x.mr n 0
    let a := mr (uMa w)
    let b := mr (uMb w) + BitVec.ofInt 64 (BitVec.ofNat 32 w.toNat).toInt
    let set := fun (y : Expanding) (v : Word) => if uMd w = 0 then y else { y with mr := x.mr.setIfInBounds (uMd w) v }
    let jumps := fun (o : Out) (y : Expanding) (pc : Int) =>
      (0 ≤ pc ∧ pc < 2048 → becomes o { y with upc := pc.toNat }) ∧
      (¬ (0 ≤ pc ∧ pc < 2048) → becomes o { y with ended := true, code := if x.code = 0 then 0x73 else x.code })
    let next := fun (o : Out) (y : Expanding) => jumps o y (x.upc + 1)
    (uLegal w = false → ∀ i ∈ [Instr.microEnd, .microIssue, .microAdd, .microLdd, .microLoop, .microLend, .microWaitAll,
      .microWaitPhaser, .microArrv, .microOpt, .microJnz], faults (exec i s) 0x71) ∧
    (uLegal w = true →
      (uKind w = 0 → becomes (exec .microEnd s) { x with ended := true }) ∧
      (∀ e ∈ ops, uKind w = 2 → uSub w = e.1 → next (exec e.2.2 s) (set x (e.2.1 a b))) ∧
      (uKind w = 2 → uSub w = 10 →
        (b.toNat % 8 = 0 ∧ b.toNat < 128 → next (exec .microLdd s) (set x (doubleword x.desc b.toNat))) ∧
        (b.toNat % 8 ≠ 0 ∨ 128 ≤ b.toNat → faults (exec .microLdd s) 0x71)) ∧
      (uKind w = 3 →
        (a = 0 → jumps (exec .microLoop s) x (x.upc + w.toNat % 2 ^ 32 + 1)) ∧
        (a ≠ 0 → 4 ≤ x.loops.length → faults (exec .microLoop s) 0x72) ∧
        (a ≠ 0 → x.loops.length < 4 → next (exec .microLoop s) { x with loops := (a.toNat, 0, x.upc + 1) :: x.loops })) ∧
      (uKind w = 4 →
        (x.loops = [] → faults (exec .microLend s) 0x72) ∧
        (∀ n i top rest, x.loops = (n, i, top) :: rest →
          (i + 1 < n → jumps (exec .microLend s) { x with loops := (n, i + 1, top) :: rest } top) ∧
          (n ≤ i + 1 → next (exec .microLend s) { x with loops := rest }))) ∧
      (uKind w = 8 → jumps (exec .microJnz s) x (if a ≠ 0 then x.upc + (BitVec.ofNat 32 w.toNat).toInt else x.upc + 1)) ∧
      (uKind w = 5 → uSub w = 0 →
        ((∀ y ∈ x.cmds, k.cmdLive y.2 = false) → next (exec .microWaitAll s) x) ∧
        ((∃ y ∈ x.cmds, k.cmdLive y.2 = true) → exec .microWaitAll s = .next s)) ∧
      (∀ o, a = BitVec.ofNat 64 (0xFFFF040000000000 + o) → o % 64 = 0 → 64 ≤ o → o < 0x400000 → s.granted d c o = true →
        let l := Loc.sync d o
        let q := s.phaser l
        let n := b.toNat % 2 ^ 32
        (s.syncWaits l = true → (uKind w = 5 → uSub w = 1 → exec .microWaitPhaser s = .next s) ∧
          (uKind w = 6 → exec .microArrv s = .next s)) ∧
        (uKind w = 5 → uSub w = 1 → s.syncWaits l = false → s.bad l 64 = false →
          (q.valid = false → faults (exec .microWaitPhaser s) 0x52) ∧
          (q.valid = true → phasePassed q.ph n = false → exec .microWaitPhaser s = .next s) ∧
          (q.valid = true → phasePassed q.ph n = true → n ≠ q.errPh → next (exec .microWaitPhaser s) x) ∧
          (q.valid = true → phasePassed q.ph n = true → n = q.errPh → 0 < q.lcode → q.lcode < 2 ^ 8 →
            faults (exec .microWaitPhaser s) q.lcode)) ∧
        (uKind w = 6 → s.syncWaits l = false → s.bad l 64 = false → s.myDie.waiters = [] → x.upc < 2047 →
          ∃ t, exec .microArrv s = .next t ∧ t.here = { k with macro_ := { k.macro_ with run := some { x with upc := x.upc + 1 } } } ∧
            (q.valid = false → s.SameMemory t) ∧
            (q.valid = true → ¬ (q.ns + q.nsw ≤ (q.arr + 1) % 2 ^ 16 ∧ q.exp ≤ (q.byt + (mr (uMb w)).toNat % 2 ^ 40) % 2 ^ 64 ∧
                0 < q.ns + q.nsw + q.exp) →
              (t.phaser l).ph = q.ph ∧ (t.phaser l).arr = (q.arr + 1) % 2 ^ 16 ∧
              (t.phaser l).byt = (q.byt + (mr (uMb w)).toNat % 2 ^ 40) % 2 ^ 64))) ∧
      (uKind w = 1 →
        let e := Engine.ofCode (BitVec.ofNat 2 (uSub w))
        let idx := w.toNat % 2 ^ 32
        let n := k.entry e idx
        let t0 := turned x.e.kind e (amendPairs e n.t (if uSub w / 4 % 2 = 1 then some a else none)
          (if uSub w / 8 = 1 then some (mr (uMb w)) else none))
        n.loading = [] → n.poisoned = none →
        ((∀ i, decodeTemplate e t0 ≠ .ok i) → faults (exec .microIssue s) 0x75) ∧
        (∀ i y, decodeTemplate e t0 = .ok i → x.upc < 2047 →
          let issued : Cmd := { id := 0, t := t0, idx := idx, slot := 0, at_ := s.clk, macro_ := true, priv := x.e.priv, token := x.e.token }
          s.agentCopy i issued = .ok (some y) →
          ((s.issueCmd d c e i y).isSome = true → ∃ t, exec .microIssue s = .next t ∧ s.SameMemory t ∧
            t.here.queued e = k.queued e ++ [{ y with id := s.ids, at_ := s.clk }] ∧
            t.here.macro_.run = some { x with upc := x.upc + 1, cmds := x.cmds ++ [(e.code, s.ids)] }) ∧
          (s.issueCmd d c e i y = none → exec .microIssue s = .next s))) ∧
      (uKind w = 7 →
        let first := a.toNat + x.opt
        let last := (mr (uMb w)).toNat
        ((∃ y ∈ x.cmds, k.cmdLive y.2 = true) → exec .microOpt s = .next s) ∧
        ((∀ y ∈ x.cmds, k.cmdLive y.2 = false) → last ≤ first → next (exec .microOpt s) { x with opt := 0 }) ∧
        (∀ (places : OptPlaces), (∀ y ∈ x.cmds, k.cmdLive y.2 = false) → last = first + 1 → x.upc < 2047 →
          s.optPlaces x first = (some places, s) → (∀ n wr, ∀ l ∈ [places.g, places.m, places.v, places.w], s.optHeld l n wr = false) →
          (∀ l ∈ [places.g, places.m, places.v, places.w], ∀ o, l ≠ .const o) →
          (∀ i j, i < 4 → j < 4 → places.m.plus i ≠ places.v.plus j ∧ places.m.plus i ≠ places.w.plus (j % 2) ∧
            places.v.plus i ≠ places.w.plus (j % 2)) →
          let gv := fp32.decode (s.peek places.g 4)
          let m := fp32.decode (s.peek places.m 4)
          let v := fp32.decode (s.peek places.v 4)
          let wt := bf16.decode (s.peek places.w 2)
          let skips := m.nonFinite || v.nonFinite || wt.nonFinite || (gv.nonFinite && !k.nfPol)
          let y := optElement (ratesOf x.desc) (if gv.nonFinite then .zero false else gv) m v wt
            (rand32 (BitVec.ofNat 64 (layerF x.desc 112 8)) first)
          let counter := fun (i : Nat) => Loc.sync d (k.nfOff.toNat * 1024 + 4 * layerF x.desc 1 1 + i)
          let counts := k.nfPol = true ∧ (skips = true ∨ gv.nonFinite = true)
          ∃ t, exec .microOpt s = .next t ∧ t.here.macro_.run = some { x with upc := x.upc + 1, opt := 0 } ∧
            (skips = false → t.peek places.m 4 = fp32.encode y.1 % 2 ^ 32 ∧ t.peek places.v 4 = fp32.encode y.2.1 % 2 ^ 32 ∧
              t.peek places.w 2 = bf16.encode y.2.2 % 2 ^ 16) ∧
            (k.nfPol = false → t.here.nfSeen = (k.nfSeen || skips)) ∧
            (∀ n, (∀ i, i < 4 → (skips = false → n ≠ places.m.plus i ∧ n ≠ places.v.plus i ∧ n ≠ places.w.plus (i % 2)) ∧
              (counts → n ≠ counter i)) → t.peek n 1 = s.peek n 1))))

/-- R414, R418, R419, R420, R421, R422, R424, R425: each of these words and steps completes: a layer macro accepted puts one
expansion into the queue of each member and is pending for its leader, a refused one fails; an expansion starts with its registers
and ends with its report; MCLD writes the store and MCSTAT reads it. -/
def Obligations.LayerMacros : Prop :=
  ∀ (s : State) (d a b : BitVec 6), s.cur.slot < 4 →
    let k := s.here
    let va := s.rx a
    let g := (s.rx b).toNat
    let ms := ((s.myDie.groups.find g).map (·.members)).getD []
    let fails := fun (o : Out) (n : Nat) =>
      ∃ t, o = .next t ∧ s.Answers t (.x d.toNat) [BitVec.ofNat 64 n] .variableLoadLanding ∧ s.SameMemory t ∧
        t.here.macro_ = k.macro_
    (∀ e ∈ ([(Instr.lfwd, 0), (.ldgr, 1), (.lwgr, 2), (.lupd, 3)] : List ((BitVec 6 → BitVec 6 → BitVec 6 → Instr) × Nat)),
      ((va.toNat % 64 ≠ 0 ∨ 4096 ≤ g ∨ ms = [] ∨ lowestRank ms ≠ s.thread) → fails (exec (e.1 d a b) s) 0xFFFFFFFF00000004) ∧
      (va.toNat % 64 = 0 → g < 4096 → lowestRank ms = s.thread → ms ≠ [] →
        (∀ p ∈ rankOrder ms, (s.core s.cur.die p.2).macro_.queue.length +
          ((rankOrder ms).filter fun q => q.2 == p.2).length ≤ 4) → s.fenceClear (s.releaseSet 2) →
        ∃ t y, exec (e.1 d a b) s = .next t ∧ s.SameMemory t ∧ (∀ r, t.rx r = s.rx r) ∧ t.me.pc = alignPc (s.me.pc + 4) ∧
          y ∈ t.me.pend ∧ y.id = s.ids ∧ y.dest = .x d.toNat ∧ y.answered = false ∧ y.left = (rankOrder ms).length ∧
          ∀ p ∈ rankOrder ms, ∃ n ∈ (t.core s.cur.die p.2).macro_.queue, n.kind = e.2 ∧ n.addr = va ∧ n.p = p.1 ∧
            n.n = (rankOrder ms).length ∧ n.lcore = s.cur.core ∧ n.lslot = s.cur.slot ∧ n.lid = s.ids ∧
            n.asid = k.ctx.asid.toNat ∧ n.priv = s.me.priv)) ∧
    (∀ e rest bs s1, k.macro_.run = none → k.macro_.queue = e :: rest → k.closed = false → s.layerBytes e = (some bs, s1) →
      let becomes := fun (x : Expanding) =>
        s1.BecomesCore (exec .expansionStart s) { s1.here with macro_ := { s1.here.macro_ with queue := rest, run := some x } }
      let unit := if e.kind = 2 then layerF bs 20 4 else if e.kind = 3 then layerF bs 20 4 * layerF bs 16 4 else layerF bs 12 4
      (∀ o, e.addr = BitVec.ofNat 64 (0xFFFF000000000000 + o) → o + 128 ≤ 2 ^ 20 →
        s1 = s ∧ bs = (List.range 128).map fun i => BitVec.ofNat 8 (s.peek (.cistern s.cur.die s.cur.core (o + i)) 1)) ∧
      (layerOk bs = true → ∃ x, becomes x ∧
        x.e = e ∧ x.upc = layerF bs (2 + 2 * e.kind) 2 ∧ x.desc = bs ∧ x.loops = [] ∧ x.cmds = [] ∧ x.opt = 0 ∧ x.code = 0 ∧ x.ended = false ∧
        ∀ n, n < 16 → vget x.mr n 0 = match n with
          | 1 => BitVec.ofNat 64 e.p
          | 2 => BitVec.ofNat 64 e.n
          | 3 => e.addr
          | 4 => BitVec.ofNat 64 (e.p * unit / e.n)
          | 5 => BitVec.ofNat 64 ((e.p + 1) * unit / e.n)
          | _ => 0) ∧
      (layerOk bs = false → ∃ x, becomes x ∧ x.e = e ∧ x.code = 0x74 ∧ x.ended = true)) ∧
    (∀ e rest s1, k.macro_.run = none → k.macro_.queue = e :: rest → k.closed = false → s.layerBytes e = (none, s1) →
      ∃ t x, exec .expansionStart s = .next t ∧ t.here.macro_.run = some x ∧ x.e = e ∧ x.code = 0x74 ∧ x.ended = true) ∧
    (∀ x y, k.macro_.run = some x → s.expansionCancelled s.cur.die s.cur.core = false → x.ended = true →
      (∀ z ∈ x.cmds, k.cmdLive z.2 = false) → x.e.lslot < 4 →
      s.findPend s.cur.die x.e.lcore x.e.lslot x.e.lid = some y → y.vals = [0, 0] → y.left = 1 →
      ∃ t z, exec .expansionEnd s = .next t ∧ s.SameMemory t ∧ t.here.macro_.run = none ∧
        t.here.macro_.lcode = (if x.code = 0 then k.macro_.lcode else x.code) ∧
        t.findPend s.cur.die x.e.lcore x.e.lslot x.e.lid = some z ∧ z.answered = true ∧ z.left = 0 ∧
        z.vals = if x.code = 0 then [0, 0] else [BitVec.ofNat 64 x.code, BitVec.ofNat 64 x.e.p]) ∧
    (∀ o f n, va = BitVec.ofNat 64 (0xFFFF000000000000 + o) → s.rx b = BitVec.ofNat 64 (f + n * 2 ^ 16) → f < 2 ^ 11 → n < 2 ^ 11 →
      f + n + 1 ≤ 2048 → o % 8 = 0 → o + 8 * (n + 1) ≤ 2 ^ 20 → k.macro_.run = none → k.macro_.queue = [] →
      (∀ at_ m wr, k.held at_ m wr = false) → k.cistern.poisoned 8 o (8 * (n + 1)) = false →
      ∃ t, exec (.mcld d a b) s = .next t ∧ s.Answers t (.x d.toNat) [0] .variableLoadLanding ∧ s.SameMemory t ∧
        ∀ i, t.here.macro_.store.get 0 i = if f ≤ i ∧ i < f + n + 1 then
          BitVec.ofNat 64 (s.peek (.cistern s.cur.die s.cur.core (o + 8 * (i - f))) 8) else k.macro_.store.get 0 i) ∧
    ((2 ^ 27 ≤ g ∨ g / 2 ^ 11 % 2 ^ 5 ≠ 0 ∨ 2048 < g % 2 ^ 11 + g / 2 ^ 16 % 2 ^ 11 + 1) →
      fails (exec (.mcld d a b) s) 0xFFFFFFFF00000004) ∧
    s.WritesX (exec (.mcstat d a 0) s) d k.macro_.stat 1 ∧
    (va.toNat < 2 ^ 11 → s.WritesX (exec (.mcstat d a 1) s) d (k.macro_.store.get 0 va.toNat) 1) ∧
    (2 ^ 11 ≤ va.toNat → s.WritesX (exec (.mcstat d a 1) s) d 0xFFFFFFFF00000004 1)

/-! ### Contexts and the host -/

/-- R433, R446, R447, R449, R450, R452, R454, R455, R456: a launch or a restore fills an empty core with what the image says, or ends with its
code; a save or an end asks the slots to stop, lets their landing records perform, closes the core, copies what it owes nothing for, and
empties it; a hard stop ends what has not stopped; the end reports and lets the slots issue. R436, R441, R444, R445: a walk ends and
installs its page, and XLT.INV removes pages. R458, R460: the host writes memory. No agent waits for a store; slots that wait for a
walk or for an answer are left out. -/
def Obligations.ContextSwitches : Prop :=
  ∀ (s : State), (∀ e ∈ s.dies.entries, e.2.waiters = []) →
    let d := s.cur.die
    let c := s.cur.core
    let k := s.here
    let quiet := ∀ x ∈ s.myDie.graphs.entries, x.2.run = none
    let free := k.ctx.valid = false ∧ s.myDie.rdy.getLsbD (8 + c / 192) = true
    let waitsNot := ∀ i, i < 4 → (k.slot i).wait ≠ .walk ∧ ∀ n, (k.slot i).wait ≠ .answer n
    let done := ({ who := { die := d, core := c }, op := .switchComplete } : Ev)
    let ends := fun (o : Out) (w : Switch) (code : Nat) => ∃ t, o = .next t ∧ s.OnlyCoresAndSteps t ∧ s.SameMemory t ∧
      s.OtherCoresAlone t ∧ t.now = s.now ++ [done] ∧ t.agenda = s.agenda ∧
      t.here = { k with switch := some { w with step := .installed, code := code } }
    let follows := fun (t : State) (op : Instr) (n : Nat) =>
      ∃ due, s.clk < due ∧ (due, ({ who := { die := d, core := c, n := n }, op := op } : Ev)) ∈ t.agenda
    -- the image of a launch, and the area of a restore
    (∀ i ∈ [Instr.contextLaunch, .contextRestore], (k.switch = none → exec i s = .next s) ∧ ∀ w, k.switch = some w →
      (k.ctx.valid = true → ends (exec i s) w 4) ∧
      (k.ctx.valid = false → s.myDie.rdy.getLsbD (8 + c / 192) = false → ends (exec i s) w 5) ∧
      (free → w.rst = false → s.physRead d w.inp 4608 = none → ends (exec i s) w 5) ∧
      (free → w.rst = false → ∀ h, s.physRead d w.inp 4608 = some h → imageF h 4 4 % 2 = 1 → s.physRead d w.inp 20992 = none →
        ends (exec i s) w 5) ∧
      (free → w.rst = false → ∀ h v, s.physRead d w.inp 4608 = some h →
        s.physRead d w.inp (if imageF h 4 4 % 2 = 1 then 20992 else 4608) = some v →
        let ok := launchOk v 1 fun n => imageF v (512 + 16 * n) 16
        (ok = false → ends (exec i s) w 2) ∧
        (ok = true → imageF v 80 8 % 64 ≠ 0 → ends (exec i s) w 2) ∧
        (ok = true → imageF v 80 8 ≠ 0 → imageF v 80 8 % 64 = 0 → ends (exec i s) w 2 ∨ ends (exec i s) w 5 ∨
          ∃ t, exec i s = .next t ∧ t.now = s.now ++ [done] ∧ (t.here.switch.map (·.code)) = some 0 ∧ t.here.ctx.valid = true ∧
            (t.here.slot 0).st = .ready ∧ (∀ n, n < 4 → (t.here.slot n).stopped = true ∧ (n ≠ 0 → (t.here.slot n).st = .free))) ∧
        (ok = true → imageF v 80 8 = 0 → quiet → ∃ t, exec i s = .next t ∧ t.now = s.now ++ [done] ∧ s.OtherCoresAlone t ∧
          (t.here.switch.map (·.code)) = some 0 ∧
          t.here.ctx = { valid := true, prio := BitVec.ofNat 4 (imageF v 1 1), asid := BitVec.ofNat 12 (imageF v 2 2)
                         root := BitVec.ofNat 45 (imageF v 8 8 / 2 ^ 11), slo := imageF v 24 4, shi := imageF v 28 4
                         jobs := BitVec.ofNat 256 (imageF v 32 32), dlc := BitVec.ofNat 64 (imageF v 64 8)
                         gang := BitVec.ofNat 16 (imageF v 72 2) } ∧
          t.here.part = partOf (wordN (imageF v 16 8)) ∧ t.here.trapVec = BitVec.ofNat 62 (imageF v 88 8 / 4) ∧
          (∀ n, n < 32 → vget t.here.sg n (0, 0) = sgOf (wordN (imageF v (256 + 8 * n) 8))) ∧
          t.here.cistern = {} ∧ t.here.panels = {} ∧ t.here.wins = Vector.replicate 64 {} ∧ t.here.mat = {} ∧
          (∀ n, n < 256 → (t.here.tmpl.get {} n).t =
            if imageF v 4 4 % 2 = 1 then BitVec.ofNat 128 (imageF v (4608 + 4096 * (n / 64) + 16 * (n % 64)) 16) else 0) ∧
          t.here.smp = {} ∧ t.here.macro_ = {} ∧ t.here.slots = Vector.replicate 4 { stopped := true } ∧
          ∀ n, n < 256 → t.here.tile n =
            { tileOf (imageF v (512 + 16 * n) 16) with
              state := if (tileOf (imageF v (512 + 16 * n) 16)).acc then .empty else .ready, ver := 0 })) ∧
      (free → w.rst = true → (s.physRange d w.inp 0x150000 = none ∨ s.physRead d w.inp 0x50000 = none) → ends (exec i s) w 5) ∧
      (free → w.rst = true → ∀ l v, s.physRange d w.inp 0x150000 = some l → s.physRead d w.inp 0x50000 = some v →
        (launchOk v 2 (fun n => imageF v (0x1000 + 16 * n) 16) = false → ends (exec i s) w 2) ∧
        (launchOk v 2 (fun n => imageF v (0x1000 + 16 * n) 16) = true → ∃ t, exec i s = .next t ∧
          t.now = s.now ++ [done] ∧ s.OtherCoresAlone t ∧ (t.here.switch.map (·.code)) = some 0 ∧ t.here.ctx.valid = true ∧
          t.here.ctx.asid = BitVec.ofNat 12 (imageF v 2 2) ∧ t.here.part = partOf (wordN (imageF v 16 8)) ∧
          ∀ n, n < 4 →
            let x := s.peek (l.plus (0x2000 + 0x1000 * n)) 4096
            (t.here.slot n).stopped = true ∧ (t.here.slot n).st = (if imageF x 0 1 % 2 = 1 then .ready else .free) ∧
            (t.here.slot n).pc = alignPc (wordN (imageF x 8 8)) ∧
            ∀ r : BitVec 6, r ≠ 0 → (t.here.slot n).rx r = wordN (imageF x (64 + 8 * r.toNat) 8)))) ∧
    -- the start of a save and of an end
    (∀ w, k.switch = some w →
      (∀ i ∈ [Instr.contextSave, .contextEnd], k.ctx.valid = false → ends (exec i s) w 4) ∧
      (s.cur.n ≠ 1 → k.ctx.valid = false → ends (exec .contextSaveInstall s) w 4) ∧
      (s.cur.n = 1 → free → exec .contextSaveInstall s = exec .contextLaunch s) ∧
      (s.cur.n = 0 → k.ctx.valid = true → s.physRead d w.inp 64 = none → ends (exec .contextSaveInstall s) w 5) ∧
      (∀ v, s.cur.n = 0 → k.ctx.valid = true → s.physRead d w.inp 64 = some v → k.ctx.prio.toNat ≤ imageF v 1 1 % 16 →
        ends (exec .contextSaveInstall s) w 3) ∧
      (∀ i, (i = .contextSave ∨ i = .contextEnd ∨ (i = .contextSaveInstall ∧ (s.cur.n = 2 ∨ (s.cur.n = 0 ∧
            ∃ v, s.physRead d w.inp 64 = some v ∧ imageF v 1 1 % 16 < k.ctx.prio.toNat)))) →
        k.ctx.valid = true → k.prefetch = [] → waitsNot → ∃ t, exec i s = .next t ∧ s.OnlyCoresAndSteps t ∧ s.OtherCoresAlone t ∧
          s.SameMemory t ∧ t.here = { k with switch := some { w with step := .stopping }, slots := t.here.slots } ∧
          (∀ n, n < 4 → t.here.slot n = if (k.slot n).st = .ready ∨ (k.slot n).st = .active then { k.slot n with stopAsked := true }
            else { k.slot n with stopped := true }) ∧
          t.agenda = s.agenda ++ if s.myDie.preDl = 0 then [] else
            [(s.clk + s.myDie.preDl.toNat * s.myDie.pwrMhz.toNat, { who := { die := d, core := c, val := wordN s.clk }, op := .hardStop })])) ∧
    -- the close, the copy and the end of the core
    (k.switch = none → exec .saveClose s = .next s ∧ exec .hardStop s = .next s) ∧
    (∀ w, k.switch = some w →
      let settled := ∀ i, i < 4 → (k.slot i).halts = true → (k.slot i).armed = false
      let spared := fun (i : Nat) => (k.slot i).halts
      (w.step = .stopping → settled → (∃ i, i < 4 ∧ (k.slot i).atRest = false) → exec .saveClose s = .next s) ∧
      (∀ i, w.step = .stopping → i < 4 → (k.slot i).halts = true → (k.slot i).armed = true → (k.slot i).lrec ≠ [] →
        ∃ t, exec .saveClose s = .next t ∧ s.SameMemory t ∧ s.OtherCoresAlone t ∧ t.here.switch = k.switch ∧
          (t.here.slot i).armed = false ∧ (t.here.slot i).lrec = [] ∧
          (t.here.slot i).lands = (k.slot i).lands ++
            (k.slot i).lrec.map fun l => { l with due := s.clk + l.due, fromRec := true, sw := k.sw }) ∧
      (w.step = .stopping → (∀ i, i < 4 → (k.slot i).atRest = true) → k.comb = [] → ∃ t, exec .saveClose s = .next t ∧
        s.OnlyCoresAndSteps t ∧ s.OtherCoresAlone t ∧ s.SameMemory t ∧
        t.here = { k with closed := true, switch := some { w with step := .closed, closedAt := s.clk }
                          slots := k.slots.map fun x => { x with stopped := true } } ∧
        t.agenda = s.agenda ++ [(s.clk + 8 * s.myDie.pwrMhz.toNat, { who := { die := d, core := c, id := s.clk }, op := .copySaveTimeout })]) ∧
      (w.step = .closed → k.mat.running = [] → k.comb = [] → waitsNot →
        (s.owesNothing d c = false → ∃ t, exec .saveClose s = .next t ∧ s.SameMemory t ∧ t.here = k) ∧
        (s.owesNothing d c = true → w.op = 4 → ∃ t, exec .saveClose s = .next t ∧ follows t .switchComplete 0 ∧
          t.here = { k.emptied with switch := some { w with step := .copied } }) ∧
        (s.owesNothing d c = true → w.op < 4 → s.physRange d w.save 0x150000 = none → ∃ t, exec .saveClose s = .next t ∧
          follows t .switchComplete 0 ∧ t.here = { k.emptied with switch := some { w with step := .copied, code := 5 } }) ∧
        (∀ l, s.owesNothing d c = true → w.op < 4 → s.physRange d w.save 0x150000 = some l → ∃ t, exec .saveClose s = .next t ∧
          t.here = { k.emptied with switch := some { w with step := .copied } } ∧
          (if w.op = 2 then follows t .contextSaveInstall 1 else follows t .switchComplete 0) ∧
          (∀ o, o < 4096 * k.part.regg → o < 2 ^ 20 → t.peek (l.plus (0x50000 + o)) 1 = s.peek (.cistern d c o) 1) ∧
          (∀ m, (∀ o, o < 0x150000 → m ≠ l.plus o) → (∀ o, m ≠ .cistern d c o) → t.peek m 1 = s.peek m 1))) ∧
      ((w.step ≠ .stopping ∨ w.start ≠ s.cur.val.toNat) → exec .hardStop s = .next s) ∧
      (w.step = .stopping → w.start = s.cur.val.toNat → waitsNot →
        ((∀ i, i < 4 → spared i = true) → exec .hardStop s = .next s) ∧
        ∃ t, exec .hardStop s = .next t ∧ s.OtherCoresAlone t ∧
          t.here.switch = some { w with hstop := (List.range 4).foldl (fun m i => if spared i then m else m ||| 2 ^ i) w.hstop } ∧
          (∀ i, i < 4 → t.here.slot i =
            if spared i then k.slot i
            else if (k.slot i).task = none then
              { k.slot i with st := .blocked, wait := .exit, lrec := [], armed := false, stopAsked := false }
            else { k.slot i with st := .free, wait := .none, task := none, lrec := [], armed := false, stopped := true
                                 stopAsked := false }) ∧
          ((∀ i, i < 4 → (k.slot i).task = none → spared i = true) → s.SameMemory t) ∧
          ∀ i h r, i < 4 → spared i = false → (∀ j, j < 4 → j ≠ i → spared j = true) → (k.slot i).task = some h →
            s.myDie.recs.find h = some r → t.myDie.queues.get [] r.queue = h :: s.myDie.queues.get [] r.queue) ∧
      (s.cur.n ≠ 1 →
        let reports := fun (t : State) =>
          t.here = { k with switch := none, slots := k.slots.map fun x => { x with stopped := false, stopAsked := false } } ∧
          t.now = s.now ++ if w.cph % 65536 = 0 then [] else
            [{ who := { die := d, id := w.cph % 65536 * 64 }, op := .engineArrival }]
        (∀ l, s.physRange d w.stat 8 = some l → w.code < 256 → w.hstop < 16 → ∃ t, exec .switchComplete s = .next t ∧
          t.peek l 8 = w.code + w.hstop * 2 ^ 8 + min ((s.timeNs d - w.startNs) / 1000) (2 ^ 32 - 1) * 2 ^ 32 ∧ reports t) ∧
        (s.physRange d w.stat 8 = none → ∃ t, exec .switchComplete s = .next t ∧ s.SameMemory t ∧ reports t))) ∧
    (s.cur.n = 1 → ∀ l, s.physRange d s.cur.val.toNat 8 = some l → ∃ t, exec .switchComplete s = .next t ∧ t.peek l 8 = 1 ∧ t.here = k ∧
      t.now = s.now ++ if s.cur.id % 65536 = 0 then [] else
        [{ who := { die := d, id := s.cur.id % 65536 * 64 }, op := .engineArrival }]) ∧
    -- walks and invalidations
    (s.me.wait ≠ .walk → exec .translationWalkDone s = .next s) ∧
    (s.me.wait = .walk → s.cur.slot < 4 →
      let va := s.cur.val.toNat
      (s.myDie.rdy.getLsbD 20 = false → ∃ t, exec .translationWalkDone s = .next t ∧ t.here = k ∧ s.SameMemory t ∧
        t.agenda = s.agenda ++ [(s.clk + 1, { who := { s.cur with id := k.ctx.root.toNat }, op := .translationWalkDone })]) ∧
      (s.myDie.rdy.getLsbD 20 = true → ∃ r, (r = s.walk d c s.cur.id va ∨ ∃ q, findPage s.myDie.hub k.ctx.asid.toNat va = some q ∧ r = .page q) ∧
        ∃ t, exec .translationWalkDone s = .next t ∧ s.OthersAlone t ∧
          t.me = { s.me with st := .ready, wait := .none
                             xl := s.me.xl ++ [{ va := va, page := match r with | .page p => some p | _ => none }] } ∧
          ((∀ pa, r ≠ .unreadable pa) → s.SameMemory t) ∧
          (∀ p, r = .page p → s.cur.n ≠ 1 → p ∈ t.here.tlb ∧ p ∈ t.myDie.hub ∧ t.here.tlb.length ≤ max 64 k.tlb.length) ∧
          ((∀ p, r ≠ .page p) ∨ s.cur.n = 1 → t.here.tlb = k.tlb ∧ t.myDie.hub = s.myDie.hub))) ∧
    (let v := s.cur.val.toNat
     let asid := v % 2 ^ 12
     let va := v / 2 ^ 16 % 2 ^ 40 * 2 ^ 16
     ∀ x ∈ ([(.xltInvAsid, fun p => p.asid == asid), (.xltInvAddr, fun p => p.asid == asid && p.va ≤ va && va < p.va + p.size),
         (.xltInvAll, fun _ => true)] : List (Instr × (Page → Bool))),
       ∃ t, exec x.1 s = .next t ∧ s.SameMemory t ∧ t.myDie.hub = s.myDie.hub.filter (fun p => !x.2 p) ∧
         (∀ n, n ≠ 768 → t.core d n = { s.core d n with
           tlb := (s.core d n).tlb.filter fun p => !x.2 p
           slots := (s.core d n).slots.map fun y => { y with xl := y.xl.filter fun e => e.page.all fun p => !x.2 p } }) ∧
         t.core d 768 = s.core d 768 ∧ (∀ m, m ≠ d → t.die m = s.die m)) ∧
    -- the host
    (let n := min (s.cur.n % 16) 8
     let write := s.cur.n / 16 % 2 = 0
     (s.cur.n / 16 % 2 = 1 → exec .hostMemAccess s = .next s) ∧
     (write → 32 ≤ s.cur.n → 0 < n → ∃ t, exec .hostMemAccess s = .next t ∧ s.OnlyMemories t ∧
       s.Stores t (.host (s.cur.id % 2 ^ 55)) n s.cur.val.toNat) ∧
     (write → s.cur.n < 32 → s.hostLink ≠ .cxl → exec .hostMemAccess s = .next s) ∧
     (write → s.cur.n < 32 → s.hostLink = .cxl → s.hdmLoc d s.cur.id = none → exec .hostMemAccess s = .next s) ∧
     (∀ l, write → s.cur.n < 32 → 0 < n → s.hostLink = .cxl → s.hdmLoc d s.cur.id = some l → ∃ t, exec .hostMemAccess s = .next t ∧
       s.OnlyMemories t ∧ s.Stores t l n s.cur.val.toNat))

/-! ### Errors, links, power and bring-up -/

/-- R409, R481, R482, R484: errors of storages; R485, R486, R487, R491: flits and links; R497, R498: heat and power; R457,
R494, R495, R496: bring-up. Fault records go into the ring of the die, or are counted as lost (R488, R489). -/
def Obligations.ErrorsLinksAndBringUp : Prop :=
  ∀ (s : State),
    let d := s.cur.die
    let x := s.myDie
    let quiet := ∀ e ∈ x.graphs.entries, e.2.run = none
    let size := 2 ^ x.fltLog.toNat
    let room := 6 ≤ x.fltLog.toNat ∧ x.fltLog.toNat ≤ 20 ∧ (x.fltTail - x.fltHead).toNat < size
    let at_ := x.fltBase.toNat * 4096 % 2 ^ 39 + x.fltTail.toNat % size * 64
    let files := fun (t : State) (unit kind action : Nat) =>
      (room → t.myDie.fltTail = x.fltTail + 1 ∧ t.myDie.fltLost = x.fltLost ∧ t.peek (.hbm d (at_ + 8)) 2 = unit ∧
        t.peek (.hbm d (at_ + 10)) 1 = kind ∧ t.peek (.hbm d (at_ + 11)) 1 = action ∧
        ∀ l, (∀ i, i < 64 → l ≠ .hbm d (at_ + i)) → t.peek l 1 = s.peek l 1) ∧
      (¬ room → t.myDie.fltTail = x.fltTail ∧ t.myDie.fltLost = (if x.fltLost.toNat = 2 ^ 20 - 1 then x.fltLost else x.fltLost + 1) ∧
        s.SameMemory t)
    let unit := match s.cur.n % 11 with
      | 0 => 0x2000 + hbmStack s.cur.id
      | 2 => 0x4000
      | 8 => 0x5000
      | 10 => 0x6000
      | _ => unitOfCore s.cur.core
    let place := match s.cur.n % 11 with
      | 0 => Loc.hbm d s.cur.id
      | 2 => Loc.sync d s.cur.id
      | _ => Loc.cistern d s.cur.core s.cur.id
    -- storages
    (unit < 2 ^ 16 → quiet → ∀ e ∈ [Instr.correctableError, .patrolScrub], (e = .patrolScrub → s.cur.val = 1) →
      ∃ t, exec e s = .next t ∧ t.myDie.correctable = x.correctable + 1 ∧ files t unit 1 1) ∧
    (∀ key g r, x.graphs = { entries := [(key, g)] } → g.run = some r → r.mode = .replay →
      ∃ t y, exec .correctableError s = .next t ∧ t.myDie.correctable = x.correctable + 1 ∧ t.stroke d key = some y ∧ y.gstop = true ∧
        y.mode = .stopping) ∧
    (s.cur.val = 0 → exec .patrolScrub s = .next s) ∧
    (unit < 2 ^ 16 → 2 ≤ s.cur.val.toNat → s.cur.n % 11 ≠ 6 → ∃ t, exec .patrolScrub s = .next t ∧ files t unit 2 2 ∧
      (s.cur.n % 11 < 3 → (s.cur.n % 11 = 0 → ∀ i, i < 64 → s.cur.id ≠ at_ + i) → t.bad place 1 = true)) ∧
    (s.cur.n % 11 < 3 → ∃ t, exec .uncorrectableError s = .next t ∧ t.bad place 1 = true ∧ s.SameMemory t ∧
      (∀ c i, t.slot d c i = s.slot d c i) ∧ ∀ m, m ≠ d → t.die m = s.die m) ∧
    (s.cur.n % 11 = 3 → ∃ t, exec .uncorrectableError s = .next t ∧ s.BecomesCore (exec .uncorrectableError s) t.here ∧
      (t.here.tmpl.get {} s.cur.id).poisoned.isSome = true ∧
      ∀ n, n ≠ s.cur.id → (t.here.tmpl.get {} n) = s.here.tmpl.get {} n) ∧
    (s.cur.n % 11 = 4 → s.BecomesCore (exec .uncorrectableError s)
      { s.here with macro_ := { s.here.macro_ with poisoned := insertNat s.here.macro_.poisoned s.cur.id } }) ∧
    (s.cur.n % 11 = 5 → s.BecomesCore (exec .uncorrectableError s) { s.here with panelsBad := insertNat s.here.panelsBad s.cur.id }) ∧
    (s.cur.n % 11 = 7 → s.BecomesCore (exec .uncorrectableError s)
      { s.here with smp := { s.here.smp with sumsBad := insertNat s.here.smp.sumsBad (s.cur.id % 16384) } }) ∧
    (s.cur.n % 11 = 8 → exec .uncorrectableError s = .next s) ∧
    (s.cur.n % 11 = 9 → s.BecomesCore (exec .uncorrectableError s) { s.here with tlb := s.here.tlb.eraseIdx s.cur.id }) ∧
    (s.cur.n % 11 = 10 → s.BecomesDie (exec .uncorrectableError s) { x with hub := x.hub.eraseIdx s.cur.id }) ∧
    (s.cur.n % 11 = 6 → s.me.st = .free → exec .uncorrectableError s = .next s) ∧
    (s.cur.n % 11 = 6 → s.cur.slot < 4 → s.cur.core < 2 ^ 12 → s.me.st ≠ .free → ∃ t, exec .uncorrectableError s = .next t ∧
      t.me = { s.me with st := .blocked, wait := .dead } ∧ s.OthersAlone t ∧ files t (unitOfCore s.cur.core) 0x22 3) ∧
    -- flits
    (let i := s.cur.n
     let l := vget x.links i {}
     let f0 := l.flits.find? fun f => f.pkt.id == s.cur.id
     let again := fun (t : State) (op : Instr) => ∃ due, s.clk < due ∧ (due, ({ who := s.cur, op := op } : Ev)) ∈ t.agenda
     let link := fun (t : State) => vget t.myDie.links i {}
     let flit := fun (t : State) => (link t).flits.find? fun f => f.pkt.id == s.cur.id
     (f0 = none → exec .flitCrcFail s = .next s ∧ exec .flitNackReceived s = .next s ∧ exec .flitParityReceived s = .next s) ∧
     (∀ f, f0 = some f → f.damaged = false →
       (∃ t, exec .flitCrcFail s = .next t ∧ flit t = some { f with damaged := true } ∧ again t .flitNackReceived) ∧
       exec .flitNackReceived s = .next s ∧ exec .flitParityReceived s = .next s) ∧
     (∀ f, f0 = some f → f.damaged = true →
       (f.resend < 3 → ∃ t, exec .flitCrcFail s = .next t ∧ flit t = some { f with resend := f.resend + 1 } ∧ again t .flitNackReceived) ∧
       (3 ≤ f.resend → i < 6 → l.retrain = none → ∃ t, exec .flitCrcFail s = .next t ∧ (link t).retrain = some s.clk ∧
         (s.clk + 100 * x.pwrMhz.toNat, ({ who := { die := d, n := i, id := s.clk }, op := .linkRetrainTimeout } : Ev)) ∈ t.agenda) ∧
       (f.incr < 2 → ∃ t, exec .flitNackReceived s = .next t ∧ t.dies = s.dies ∧ again t .flitParityReceived) ∧
       (2 ≤ f.incr → (∃ t, exec .flitNackReceived s = .next t ∧ flit t = some { f with damaged := false } ∧ again t .flitAck ∧
           (link t).res = (if l.res = 0xFFFF then l.res else l.res + 1)) ∨
         (∃ t, exec .flitNackReceived s = .next t ∧ t.dies = s.dies ∧ again t .flitCrcFail)) ∧
       ((∃ t, exec .flitParityReceived s = .next t ∧ flit t = some { f with damaged := false } ∧
           t.now = s.now ++ [{ who := s.cur, op := .flitAck }] ∧ (link t).par = (if l.par = 0xFFFF then l.par else l.par + 1)) ∨
         (∃ t, exec .flitParityReceived s = .next t ∧ flit t = some { f with incr := f.incr + 1 } ∧ again t .flitNackReceived))) ∧
     (l.retrain ≠ some s.cur.id → exec .linkRetrainTimeout s = .next s) ∧
     (l.retrain = some s.cur.id →
       (2 ≤ l.st.toNat → ∃ t, exec .linkRetrainTimeout s = .next t ∧ link t = { l with retrain := none } ∧ t.myDie.rdy = x.rdy) ∧
       (l.st.toNat < 2 → ∃ t, exec .linkRetrainTimeout s = .next t ∧ link t = { l with retrain := none, st := 2, flits := [] } ∧
         (∀ b, b < 22 → t.myDie.rdy.getLsbD b = (x.rdy.getLsbD b && b != 12 + i)) ∧ files t (0x3000 + i) 0x11 8)) ∧
     (i < 6 → (l.retrain.isSome = true ∨ l.st = 3) → ∃ t, exec .linkRetrainSuccess s = .next t ∧
       (link t).st = (if s.cur.val = 1 then 1 else 0) ∧ (link t).retrain = none ∧ (∀ f ∈ (link t).flits, f.damaged = false) ∧
       (link t).rtn = (if l.retrain.isSome = true ∧ l.rtn ≠ 15 then l.rtn + 1 else l.rtn) ∧
       (∀ b, b < 22 → t.myDie.rdy.getLsbD b = (x.rdy.getLsbD b || b == 12 + i)) ∧
       (∀ f ∈ l.flits, f.damaged = true → ∃ due, s.clk < due ∧ (due, ({ who := { s.cur with id := f.pkt.id }, op := .flitAck } : Ev)) ∈ t.agenda) ∧
       (l.retrain.isSome = true → files t (0x3000 + i) 0x10 7)) ∧
     ((6 ≤ i ∨ (l.retrain = none ∧ l.st ≠ 3)) → exec .linkRetrainSuccess s = .next s)) ∧
    -- heat and power
    (let temp := s.cur.n % 16
     let droop := s.cur.id % 16
     ∃ t, exec .sensorThreshold s = .next t ∧ t.here.temp = temp ∧ t.here.droop = droop ∧ s.OtherCoresAlone t ∧
       (temp < 12 → droop < 12 → t.myDie.pwrMv = x.pwrMv ∧ t.myDie.pwrMhz = x.pwrMhz ∧ t.myDie.fltTail = x.fltTail ∧ s.SameMemory t) ∧
       (350 ≤ x.pwrMv.toNat → 350 ≤ t.myDie.pwrMv.toNat ∧ t.myDie.pwrMv.toNat ≤ x.pwrMv.toNat) ∧
       t.myDie.pwrMhz.toNat ≤ x.pwrMhz.toNat ∧
       (12 ≤ temp → droop < 12 → files t 0x8000 0x30 10) ∧ (temp < 12 → 12 ≤ droop → files t 0x8000 0x31 10) ∧
       (x.hotSince = none → temp = 15 → t.myDie.hotSince = some s.clk ∧
         (s.clk + 1000 * t.myDie.pwrMhz.toNat, ({ who := { die := d, core := s.cur.core, id := s.clk }, op := .thermalHalt } : Ev)) ∈ t.agenda) ∧
       ((∀ e ∈ t.myDie.cores.entries, e.2.temp ≠ 15) → t.myDie.hotSince = none)) ∧
    ((x.hotSince ≠ some s.cur.id ∨ x.halted = true) → exec .thermalHalt s = .next s) ∧
    (x.hotSince = some s.cur.id → x.halted = false → ∃ t, exec .thermalHalt s = .next t ∧ t.myDie.halted = true ∧
      (∀ b, b < 22 → t.myDie.rdy.getLsbD b = (x.rdy.getLsbD b && !(8 ≤ b && b < 12))) ∧ files t 0x8000 0x30 11) ∧
    (let point := 350 ≤ s.cur.id ∧ s.cur.id ≤ 550 ∧ 0 < s.cur.n ∧ s.cur.n < 4096
     (point → ∃ t, exec .operatingPointChange s = .next t ∧ t.timeNs d = s.timeNs d ∧
       t.myDie = { x with pwrMhz := BitVec.ofNat 12 s.cur.n, pwrMv := BitVec.ofNat 12 s.cur.id, pwrDie := BitVec.ofNat 16 s.cur.val.toNat
                          pwrPkg := BitVec.ofNat 16 (s.cur.val.toNat / 2 ^ 16), refNs := s.timeNs d, refClk := s.clk } ∧
       (∀ m, m ≠ d → t.die m = s.die m) ∧ t = { s with dies := t.dies, agenda := t.agenda } ∧
       t.agenda = s.agenda.map fun e =>
         if e.2.who.die = d ∧ e.2.op ∈ [Instr.hardStop, .copySaveTimeout, .linkRetrainTimeout, .thermalHalt] then
           (s.clk + (e.1 - s.clk) * s.cur.n / x.pwrMhz.toNat, e.2)
         else e) ∧
     (¬ point → exec .operatingPointChange s = .next s)) ∧
    (∃ t, exec .powerRemoved s = .next t ∧ t.powered = false ∧ step t = .fault .noPower ∧ t.hostMem = s.hostMem ∧
      ∀ m, t.die m = Die.reset) ∧
    -- bring-up
    (let bs := s.hostMem.readBytes s.cur.id s.cur.n
     let key := bs.take 1312
     let rest := bs.drop 3732
     let version := (bs[3732]?.getD 0).toNat + 256 * (bs[3733]?.getD 0).toNat + 2 ^ 16 * (bs[3734]?.getD 0).toNat +
       2 ^ 24 * (bs[3735]?.getD 0).toNat
     let signed := sha3 key = Config.vendorKeyDigest ∧ Config.mldsaVerify key (sha3 rest) ((bs.drop 1312).take 2420) = true
     let refuses := fun (n : BitVec 8) => s.BecomesDie (exec .bootVerify s) { x with bootCode := n, rdy := x.rdy &&& ~~~0x200000 }
     let whole := 3736 ≤ s.cur.n ∧ s.bad (.host s.cur.id) s.cur.n = false
     (¬ whole → refuses 4) ∧ (whole → ¬ signed → refuses 2) ∧
     (whole → signed → version < (Config.rollback d).toNat → refuses 3) ∧
     (whole → signed → (Config.rollback d).toNat ≤ version → s.BecomesDie (exec .bootVerify s)
       { x with bootCode := 0, fwVer := BitVec.ofNat 32 version, fwDigest := sha3 rest, rdy := x.rdy ||| 0x200000 })) ∧
    (let bit := fun (b : Nat) => (1 : BitVec 22) <<< b
     let ready := fun (b : Nat) => if s.cur.n = 1 then x.rdy &&& ~~~(bit b) else x.rdy ||| bit b
     (s.cur.id < 4 → s.BecomesDie (exec .clusterSelfTest s) { x with rdy := ready (8 + s.cur.id) }) ∧
     (4 ≤ s.cur.id → exec .clusterSelfTest s = .next s) ∧
     (s.cur.id < 6 → s.BecomesDie (exec .hbmStackTraining s) { x with rdy := ready s.cur.id }) ∧
     (6 ≤ s.cur.id → exec .hbmStackTraining s = .next s)) ∧
    exec .hostLinkTraining s = .next { s with hostLink := if s.cur.n = 1 then .cxl else .pcie } ∧
    (let index := s.mapWord d 768 (8 + d) / 2 ^ 48
     let bytes := fun (v n : Nat) => (List.range n).map fun i => BitVec.ofNat 8 (v / 2 ^ (8 * i))
     let body := bytes index 2 ++ bytes x.fwDigest.toNat 32 ++ bytes x.fwVer.toNat 4 ++ bytes (Config.rollback d).toNat 4 ++
       bytes s.cur.id 32
     s.BecomesDie (exec .attestationReport s)
       { x with report := body ++ Config.mldsaSign (BitVec.ofNat 256 (Config.identitySeed d).toNat) (sha3 body) })

/-! ### The step, decoding, reset and invariants -/

/-- Log 10: a step of a powered machine takes the first step that waits; in the issue of a clk, the core whose turn it is
issues the word at its program counter: the word is the four bytes there, and the step is the effect of the instruction
that they decode to, after which the word counts as issued (R15, R17, R36, R68, R69, R70, R438). The fetch fault, and the wait for a
walk, come before; so does the wait for a landing record that has no room beside the landings under way (log 83, DEDUCED). -/
def Obligations.StepRunsTheDecodedInstruction : Prop :=
  ∀ (s : State), s.powered = true →
    (∀ e rest, s.now = e :: rest → step s = exec e.op { s with now := rest, cur := e.who }) ∧
    (∀ e rest, s.now = [] → s.phase = .land → s.nextDue = some (e, rest) → step s = exec e.op { s with agenda := rest, cur := e.who }) ∧
    (∀ d c rest, s.now = [] → s.phase = .issue → s.turn = (d, c) :: rest → (s.core d c).issues s.clk = none →
      step s = .next { s with turn := rest }) ∧
    (∀ d c rest j, s.now = [] → s.phase = .issue → s.turn = (d, c) :: rest → (s.core d c).issues s.clk = some j →
      let t := { s with turn := rest, cur := { die := d, core := c, slot := j } }
      let alone := fun (t' : State) => t'.as t.cur
      let full := t.me.armed = true ∧ 8 < t.me.lands.length + t.me.lrec.length
      (full → step s = .next t) ∧
      (¬ full → (∀ n v i, t.fetchLoc = .trap n v i → step s = t.raise n v i) ∧
        (∀ va, t.fetchLoc = .walk va → step s = .next (t.walkFor va)) ∧
        ∀ l, t.fetchLoc = .ok l →
          (t.bad l 4 = true → step s = t.raise 0x04 t.me.pc 3) ∧
          (t.bad l 4 = false →
            let w : InstrWord := BitVec.ofNat 32 (s.peek l 4)
            (∀ r, decodeWord w = .error r → step s = t.raise 0x01 (w.setWidth 64) 0) ∧
            (∀ i, decodeWord w = .ok i →
              ((privilegedOf i = true ∧ t.me.priv = false) ∨ t.templateFaulted i = true → step s = exec i t) ∧
              (¬ (privilegedOf i = true ∧ t.me.priv = false) → t.templateFaulted i = false →
                (t.hazard i = .clear → ∀ u, exec i t = .next u → step s = .next ((alone u).issued t.me.armed)) ∧
                (t.hazard i = .blocked → step s = .next (t.upMe fun x => { x with st := .blocked, wait := .word })) ∧
                (t.hazard i = .held → step s = .next t) ∧
                (∀ y, t.hazard i = .late y → step s = .next (t.lateTrap y))))))) ∧
    (∀ (t : State), t.me.wait = .none → (∀ e ∈ t.now, e.who.trig = none) →
      t.cur.slot < 4 → (t.issued false).me = { t.me with attempts := 0, xl := [] }) ∧
    (s.cur.slot < 4 → s.me.pc = BitVec.ofNat 64 (0xFFFF000000000000 + s.me.pc.toNat % 2 ^ 40) → s.me.pc.toNat % 2 ^ 40 < 2 ^ 20 →
      s.fetchLoc = .ok (.cistern s.cur.die s.cur.core (s.me.pc.toNat % 2 ^ 40)))

/-- R68, R71 to R96 and the examples of the chapters: the words and templates that the spec writes out decode to the
instructions that they stand for, and the zero word to none. -/
def Obligations.WordsOfTheSpec : Prop :=
  (∀ e ∈ ([(0x00051838, .add 5 6 3 true), (0x14051234, .movi 0 5 0x1234), (0x23214702, .ldd 2 5 7 2), (0x3113FFFD, .bnz 4 0x3FFFD),
      (0x37100009, .loop 4 9), (0x38004007, .loopi 4 7), (0x64470000, .lidx 7 0), (0x06492070, .cmplt 9 8 7 false), (0x30240002, .bz 9 2),
      (0x3A000000, .brkl), (0x10051401, .addi 5 5 1), (0x39000000, .endl), (0x62C00000, .exit), (0x61C00000, .nop)] :
      List (InstrWord × Instr)), decodeWord e.1 = .ok e.2) ∧
  (∀ e ∈ ([(0x498A5160, .phnew 5 10 11), (0x4C9251C0, .phbyt 9 10 14), (0x4C0C5002, .pharw 6 10 0 2), (0x488E6002, .ftget 7 12 2),
      (0x479061A2, .ftset 8 12 13 2), (0x4B8ADB40, .phwait 5 27 26 0), (0x46085802, .lda 4 11 2), (0x4E1AE182, .brcmp 13 28 12 2),
      (0x4F007920, .rcinc 0 15 9), (0x29108A00, .stw 1 2 10 0), (0x50000006, .fencec 6), (0x51000003, .fencex 3),
      (0x54087000, .winset 2 7), (0x53088240, .fencef 2 8 9)] : List (InstrWord × Instr)), decodeWord e.1 = .ok e.2) ∧
  (∀ e ∈ ([(0x71465150, .rngget 6 20 21), (0x70490001, .tkpop 9 1), (0x72481801, .grdshp 8 6 1), (0x635B0001, .join 27 0 1),
      (0x63077801, .spawn 7 30 1), (0x64C52800, .ctxsw 5 10), (0x61002640, .csrwr 9 0x240), (0x60D40242, .csrrd 20 0x242),
      (0x814C00A4, .vx 5 12 0xA4), (0xB0031009, .ecmd .mat 3 4 9), (0xD0145400, .ecmd .cpy 20 21 0)] : List (InstrWord × Instr)),
      decodeWord e.1 = .ok e.2) ∧
  decodeWord 0x00000000 = .error .zeroWord ∧
  decodeTemplate .mat 0x010000020000207C0000000000000000 = .ok (.mlds 0 2 0 0 32 31) ∧
  decodeTemplate .mat 0x03000009000010020000008000040000 = .ok (.mstr 0 9 0 1 0 0 1 0 0 32 0 32) ∧
  decodeTemplate .mat 0x05000509000010300002800000000000 = .ok (.mdrn 5 9 0 1 3 0 5 0 0 0 0 0 0 0 0) ∧
  decodeTemplate .cpy 0x03000606000000000000000000000000 = .ok (.cpyf 6 6 0 0 0) ∧
  decodeTemplate .smp 0x04000002000002000100080600000000 = .ok (.alb 0 2 0 2 1 4 3 0)

/-- The reset values that the register maps of the chapters give (R18, R90, R117, R221, R287, R306, R309, R329, R331, R389,
R392, R402, R437, R487, R489, R493, R495, R497); the boot thread is log 1, DESIGN CHOICE, the registers without one are
log 2, DESIGN CHOICE, memory is
log 3, DESIGN CHOICE. Every memory is in its canonical form. -/
def Obligations.ResetValues : Prop :=
  let s := State.reset
  s.clk = 0 ∧ s.now = [] ∧ s.agenda = [] ∧ s.powered = true ∧ s.memoriesWf ∧
  (∀ l, (∀ o, l ≠ .const o) → s.peek l 1 = 0) ∧
  (∀ d, let x := s.die d
    x.rdy = 0 ∧ x.bootCode = 1 ∧ x.fwVer = 0 ∧ x.preDl = 200 ∧ x.pwrMhz = 1500 ∧ x.pwrMv = 400 ∧ x.grMode = .idle ∧ x.gmRec = true ∧
    x.gmRpl = true ∧ x.gmCapt = false ∧ x.fltBase = 0 ∧ x.fltLog = 0 ∧ x.fltHead = 0 ∧ x.fltTail = 0 ∧ x.fltLost = 0 ∧ x.dispDev = 4 ∧
    ∀ i, i < 6 → (vget x.links i {}).st = 3) ∧
  (∀ d c, let k := s.core d c
    k.part = { accg := 64, scrg := 160, regg := 32 } ∧ k.trapVec = 0 ∧ k.turn = 0xC30F3C ∧ k.tmo = 1465 ∧ k.topo = 0 ∧ k.nfPol = false ∧
    k.nfCbase = 0x400000 ∧ k.smp.tau = 0x3C23D70A ∧ k.smp.nmin = 32 ∧ k.smp.nmax = 4096 ∧ k.smp.chk = 256 ∧ k.smp.sum = 0 ∧
    k.smp.cnt = 0 ∧ k.smp.var = 0 ∧ k.smp.q = 0 ∧ k.smp.seed = 0 ∧ k.ctx.valid = false ∧
    (∀ i, (k.tmpl.get {} i).t = 0) ∧ (∀ i, i < 32 → vget k.sg i (0, 0) = (if i < 5 then i else 0, 0)) ∧
    (∀ i, i < 64 → (k.win i).valid = false) ∧
    ∀ i, i < 4 → (∀ r, (k.slot i).rx r = 0) ∧ (k.slot i).inh = false ∧ (k.slot i).lsDepth = 0 ∧ (k.slot i).lrec = [] ∧
      (∀ v, v < 8 → vget (k.slot i).vw v 0 = 0) ∧
      (¬ (c = 768 ∧ i = 0) → (k.slot i).st = .free) ∧
      (c = 768 → i = 0 → (k.slot i).st = .active ∧ (k.slot i).priv = true ∧ (k.slot i).pc = 0xFFFF000000000000))

/-- R68 to R96: decoding and encoding agree. Every instruction that keeps the rules of its entry and has a word is read
back from that word with every operand, and every word that decodes is the word of what it decodes to; the same holds of
the templates of the matrix, copy and sampling engines. -/
def Obligations.EncodingsAgree : Prop :=
  (∀ i, i.wf = true → encode i ≠ 0 → decodeWord (encode i) = .ok i) ∧
  (∀ w i, decodeWord w = .ok i → encode i = w ∧ i.wf = true) ∧
  (∀ i t, i.wf = true → encodeTemplate i = some t → ∃ e, e ≠ .vec ∧ decodeTemplate e t = .ok i) ∧
  (∀ e t i, decodeTemplate e t = .ok i → encodeTemplate i = some t ∧ i.wf = true) ∧
  (∀ i w, decodeWord w = .ok i → decodeBytes (bytesOfWord w) = .ok (i, []))

/-- Log 3, R482: the canonical form of the memories is an invariant of every step, from every state that has it: addresses
rising, no listed byte equal to what an unlisted address reads as, poison marks rising. -/
def Obligations.MemoriesStayCanonical : Prop :=
  ∀ (s t : State), s.memoriesWf → step s = .next t → t.memoriesWf
end

