-- ==== Sys2Proof/Laws/Tables.lean ====
section
/-! SUPPORT. Tables, vectors and the dies, cores and slots of the machine: a read after a write, and everything else
left alone. -/

namespace Sys2Proof.Machine
open Sys2Proof

/-! ### Tables -/

theorem assocGet_set_same {α : Type} (d : α) (l : List (Nat × α)) (k : Nat) (v : α) :
    assocGet d (assocSet l k v) k = v := by
  induction l with
  | nil => simp [assocSet, assocGet]
  | cons e rest ih =>
    obtain ⟨k', v'⟩ := e
    simp only [assocSet]
    split
    · simp [assocGet]
    · split
      · simp [assocGet]
      · rw [assocGet, if_neg (by omega), ih]

theorem assocGet_set_other {α : Type} (d : α) (l : List (Nat × α)) {k j : Nat} (v : α) (h : j ≠ k) :
    assocGet d (assocSet l k v) j = assocGet d l j := by
  induction l with
  | nil => simp [assocSet, assocGet, Ne.symm h]
  | cons e rest ih =>
    obtain ⟨k', v'⟩ := e
    simp only [assocSet]
    split
    · simp [assocGet, Ne.symm h]
    · split
      · subst_vars; simp [assocGet, Ne.symm h]
      · simp only [assocGet, ih]

@[simp] theorem Tab.get_set_same {α : Type} (t : Tab α) (d : α) (k : Nat) (v : α) : (t.set k v).get d k = v :=
  assocGet_set_same d t.entries k v

theorem Tab.get_set_other {α : Type} (t : Tab α) (d : α) {k j : Nat} (v : α) (h : j ≠ k) :
    (t.set k v).get d j = t.get d j :=
  assocGet_set_other d t.entries v h

/-! ### Vectors -/

theorem vget_set_same {α : Type} {n : Nat} (v : Vector α n) {i : Nat} (x d : α) (h : i < n) :
    vget (v.setIfInBounds i x) i d = x := by
  simp [vget, h]

theorem vget_set_other {α : Type} {n : Nat} (v : Vector α n) {i j : Nat} (x d : α) (h : j ≠ i) :
    vget (v.setIfInBounds i x) j d = vget v j d := by
  simp [vget, Ne.symm h]

/-! ### Dies -/

@[simp] theorem State.die_setDie_same (s : State) (d : Nat) (x : Die) : (s.setDie d x).die d = x := by
  simp [State.die, State.setDie]

theorem State.die_setDie_other (s : State) {d e : Nat} (x : Die) (h : e ≠ d) : (s.setDie d x).die e = s.die e :=
  Tab.get_set_other s.dies Die.reset x h

@[simp] theorem State.die_modDie_same (s : State) (d : Nat) (f : Die → Die) : (s.modDie d f).die d = f (s.die d) :=
  State.die_setDie_same s d _

theorem State.die_modDie_other (s : State) {d e : Nat} (f : Die → Die) (h : e ≠ d) : (s.modDie d f).die e = s.die e :=
  State.die_setDie_other s _ h

/-! ### Cores -/

@[simp] theorem Die.core_setCore_same (x : Die) (c : Nat) (k : Core) : (x.setCore c k).core c = k := by
  simp [Die.core, Die.setCore]

theorem Die.core_setCore_other (x : Die) {c e : Nat} (k : Core) (h : e ≠ c) : (x.setCore c k).core e = x.core e :=
  Tab.get_set_other x.cores _ k h

@[simp] theorem State.core_modCore_same (s : State) (d c : Nat) (f : Core → Core) :
    (s.modCore d c f).core d c = f (s.core d c) := by
  simp [State.core, State.modCore, State.setCore]

theorem State.core_modCore_other (s : State) {d c e b : Nat} (f : Core → Core) (h : e ≠ d ∨ b ≠ c) :
    (s.modCore d c f).core e b = s.core e b := by
  by_cases he : e = d
  · subst he
    have hb : b ≠ c := by simpa using h
    simp [State.core, State.modCore, State.setCore, Die.core_setCore_other _ _ hb]
  · simp [State.core, State.modCore, State.setCore, State.die_modDie_other _ _ he]

/-! ### Slots -/

theorem Core.slot_setSlot_same (k : Core) {i : Nat} (x : Slot) (h : i < 4) : (k.setSlot i x).slot i = x :=
  vget_set_same k.slots x {} h

theorem Core.slot_setSlot_other (k : Core) {i j : Nat} (x : Slot) (h : j ≠ i) : (k.setSlot i x).slot j = k.slot j :=
  vget_set_other k.slots x {} h

theorem State.slot_modSlot_same (s : State) (d c : Nat) {i : Nat} (f : Slot → Slot) (h : i < 4) :
    (s.modSlot d c i f).slot d c i = f (s.slot d c i) := by
  simp [State.slot, State.modSlot, Core.modSlot, Core.slot_setSlot_same _ _ h]

theorem State.slot_modSlot_other (s : State) {d c i e b j : Nat} (f : Slot → Slot) (h : e ≠ d ∨ b ≠ c ∨ j ≠ i) :
    (s.modSlot d c i f).slot e b j = s.slot e b j := by
  by_cases hc : e = d ∧ b = c
  · obtain ⟨rfl, rfl⟩ := hc
    have hj : j ≠ i := by simpa using h
    simp [State.slot, State.modSlot, Core.modSlot, Core.slot_setSlot_other _ _ hj]
  · simp [State.slot, State.modSlot, State.core_modCore_other _ _ (by omega : e ≠ d ∨ b ≠ c)]

/-- A slot change leaves the dies other than its own alone. -/
theorem State.die_modSlot_other (s : State) {d c i e : Nat} (f : Slot → Slot) (h : e ≠ d) :
    (s.modSlot d c i f).die e = s.die e :=
  State.die_modDie_other s _ h

/-- The slot that the step concerns, after a change of it. -/
theorem State.me_upMe (s : State) (f : Slot → Slot) (h : s.cur.slot < 4) : (s.upMe f).me = f s.me :=
  State.slot_modSlot_same s _ _ f h

@[simp] theorem State.here_upHere (s : State) (f : Core → Core) : (s.upHere f).here = f s.here :=
  State.core_modCore_same s _ _ f

@[simp] theorem State.myDie_upDie (s : State) (f : Die → Die) : (s.upDie f).myDie = f s.myDie :=
  State.die_modDie_same s _ f

end Sys2Proof.Machine
end

