-- ==== Sys2Proof/Laws/Frames.lean ====
section
/-! SUPPORT. What a change of one slot, of one core or of one die leaves alone, and what a word that writes a register
does, each said once. -/

namespace Sys2Proof.Machine
open Sys2Proof

/-! ### A change of the slot that the step concerns -/

theorem State.onlySlots_upMe (s : State) (f : Slot → Slot) : s.OnlySlots (s.upMe f) := by
  refine ⟨rfl, fun d => ?_, fun d c => ?_⟩
  · by_cases h : d = s.cur.die
    · subst h; simp [State.upMe, State.modSlot, State.modCore, State.setCore, Die.setCore]
    · simp [State.upMe, State.die_modSlot_other s f h]
  · by_cases h : d = s.cur.die ∧ c = s.cur.core
    · obtain ⟨rfl, rfl⟩ := h
      simp [State.upMe, State.modSlot, Core.modSlot, Core.setSlot]
    · simp [State.upMe, State.modSlot, State.core_modCore_other s _ (by omega : d ≠ s.cur.die ∨ c ≠ s.cur.core)]

theorem State.othersAlone_upMe (s : State) (f : Slot → Slot) : s.OthersAlone (s.upMe f) := fun _ _ _ h =>
  State.slot_modSlot_other s f (by omega)

theorem State.OnlySlots.sameMemory {s t : State} (h : s.OnlySlots t) : s.SameMemory t := by
  intro l
  obtain ⟨h1, h2, h3⟩ := h
  cases l with
  | cistern d c o => simp only [State.peek]; rw [h3 d c]
  | hbm d o => simp only [State.peek]; rw [h2 d]
  | host a => simp only [State.peek]; rw [h1]
  | sync d o => simp only [State.peek]; rw [h2 d]
  | const o => rfl

theorem State.onlyMe_upMe (s : State) (f : Slot → Slot) : s.OnlyMe (s.upMe f) :=
  ⟨s.onlySlots_upMe f, s.othersAlone_upMe f, (s.onlySlots_upMe f).sameMemory⟩

theorem State.OnlySlots.trans {s t u : State} (h : s.OnlySlots t) (g : t.OnlySlots u) : s.OnlySlots u := by
  obtain ⟨h1, h2, h3⟩ := h
  obtain ⟨g1, g2, g3⟩ := g
  refine ⟨?_, fun d => ?_, fun d c => ?_⟩
  · rw [g1, h1]
  · rw [g2 d, h2 d]
  · rw [g3 d c, h3 d c]

theorem State.OnlySlots.cur {s t : State} (h : s.OnlySlots t) : t.cur = s.cur := by rw [h.1]

theorem State.OnlyMe.trans {s t u : State} (h : s.OnlyMe t) (g : t.OnlyMe u) : s.OnlyMe u := by
  refine ⟨h.1.trans g.1, fun d c i hn => ?_, fun l => (g.2.2 l).trans (h.2.2 l)⟩
  rw [g.2.1 d c i (by rw [h.1.cur]; exact hn), h.2.1 d c i hn]

/-! ### Registers of a slot -/

@[simp] theorem Slot.rx_zero (x : Slot) : x.rx 0 = 0 := rfl

theorem Slot.rx_wx_same (x : Slot) (d : BitVec 6) (v : Word) : (x.wx d v).rx d = if d = 0 then 0 else v := by
  by_cases h : d = 0
  · subst h; rfl
  · simp only [Slot.rx, Slot.wx, if_neg h]
    exact vget_set_same x.x v 0 d.isLt

theorem Slot.rx_wx_other (x : Slot) {d r : BitVec 6} (v : Word) (h : r ≠ d) : (x.wx d v).rx r = x.rx r := by
  by_cases hd : d = 0
  · subst hd; rfl
  · simp only [Slot.rx, Slot.wx, if_neg hd]
    split
    · rfl
    · exact vget_set_other x.x v 0 (fun e => h (BitVec.eq_of_toNat_eq e))

/-! ### A word that writes a register and goes on -/

/-- R119, R121: what a word that writes xd does, said once. -/
theorem State.result_writes (s : State) (d : BitVec 6) (v : Word) (n : Nat) (h : s.cur.slot < 4) :
    s.WritesX (s.result d v n) d v n := by
  have h1 : (s.wx d v n).cur.slot < 4 := h
  refine ⟨_, rfl, (s.onlyMe_upMe _).trans ((s.wx d v n).onlyMe_upMe _), ?_⟩
  have hm : ((s.wx d v n).next4).me = { (s.wx d v n).me with pc := alignPc ((s.wx d v n).me.pc + 4) } :=
    State.me_upMe _ _ h1
  have hw : (s.wx d v n).me = if d = 0 then s.me else { s.me.wx d v with
      lock := (s.me.lock.filter fun e => e.1 != d.toNat) ++ (if n ≤ 1 then [] else [(d.toNat, s.clk + n)])
      lateX := s.me.lateX.filter fun e => e.1 != d.toNat } := State.me_upMe _ _ h
  rw [hm, hw]
  by_cases hd : d = 0
  · subst hd
    simp only
    exact ⟨rfl, fun r _ => rfl, rfl, fun c => by simp [Slot.locked], fun c r _ => rfl, by simp, rfl⟩
  · simp only [if_neg hd]
    have hwx : s.me.wx d v = { s.me with x := s.me.x.setIfInBounds d.toNat v } := if_neg hd
    refine ⟨Slot.rx_wx_same s.me d v, fun r hr => Slot.rx_wx_other s.me v hr, by rw [hwx], fun c => ?_,
      fun c r hr => ?_, (if_neg hd).symm, by rw [hwx]⟩
    · simp only [Slot.locked, List.any_append, List.any_filter]
      have : (s.me.lock.any fun e => (e.1 != d.toNat) && (e.1 == d.toNat && decide (c < e.2))) = false := by
        rw [List.any_eq_false]; intro e _; by_cases he : e.1 = d.toNat <;> simp [he]
      simp only [this, Bool.false_or]
      by_cases hn : n ≤ 1
      · simp [hn, show ¬ 1 < n by omega]
      · simp [hn, show 1 < n by omega]
    · simp only [Slot.locked, List.any_append, List.any_filter]
      have hne : r.toNat ≠ d.toNat := fun e => hr (BitVec.eq_of_toNat_eq e)
      congr 1
      have h2 : ((if n ≤ 1 then ([] : List (Nat × Nat)) else [(d.toNat, s.clk + n)]).any
          fun e => e.1 == r.toNat && decide (c < e.2)) = false := by
        split <;> simp [Ne.symm hne]
      rw [h2, Bool.or_false]
      congr 1
      funext e
      by_cases he : e.1 = r.toNat <;> simp [he, hne]

end Sys2Proof.Machine
end

