-- ==== Sys2Proof/Laws/Memory.lean ====
section
/-! SUPPORT. Memories: a byte read after a write, every other byte left alone, and the canonical form kept by every
memory operation. -/

namespace Sys2Proof.Machine
open Sys2Proof

/-! ### One byte -/

theorem assocGet_filter_same {α : Type} (d : α) (l : List (Nat × α)) (a : Nat) :
    assocGet d (l.filter fun c => c.1 != a) a = d := by
  induction l with
  | nil => rfl
  | cons e rest ih =>
    rw [List.filter_cons]
    split
    · rename_i he
      rw [assocGet, if_neg (by simpa using he), ih]
    · exact ih

theorem assocGet_filter_other {α : Type} (d : α) (l : List (Nat × α)) {a j : Nat} (h : j ≠ a) :
    assocGet d (l.filter fun c => c.1 != a) j = assocGet d l j := by
  induction l with
  | nil => rfl
  | cons e rest ih =>
    rw [List.filter_cons]
    split
    · simp only [assocGet, ih]
    · rename_i he
      have : e.1 = a := by simpa using he
      rw [assocGet, if_neg (by omega), ih]

@[simp] theorem Mem.read_write_same (m : Mem) (a : Nat) (b : Byte) : (m.write a b).read a = b := by
  simp only [Mem.read, Mem.write]
  split
  · rename_i hb; rw [assocGet_filter_same, hb]
  · exact assocGet_set_same _ _ _ _

theorem Mem.read_write_other (m : Mem) {a j : Nat} (b : Byte) (h : j ≠ a) : (m.write a b).read j = m.read j := by
  simp only [Mem.read, Mem.write]
  split
  · exact assocGet_filter_other _ _ h
  · exact assocGet_set_other _ _ _ h

/-! ### Numbers and lists of bytes -/

/-- Bytes outside those written read as before. -/
theorem Mem.read_writeNat_other (m : Mem) {n a j : Nat} (v : Nat) (h : j < a ∨ a + n ≤ j) :
    (m.writeNat a n v).read j = m.read j := by
  induction n generalizing m a v with
  | zero => rfl
  | succ n ih => rw [Mem.writeNat, ih _ _ (by omega), Mem.read_write_other _ _ (by omega)]

/-- Bytes outside those written read as before. -/
theorem Mem.read_writeBytes_other (m : Mem) {bs : List Byte} {a j : Nat} (h : j < a ∨ a + bs.length ≤ j) :
    (m.writeBytes a bs).read j = m.read j := by
  induction bs generalizing m a with
  | nil => rfl
  | cons b rest ih =>
    simp only [List.length_cons] at h
    rw [Mem.writeBytes, ih _ (by omega), Mem.read_write_other _ _ (by omega)]

/-- Bytes at addresses that no cell names read as before. -/
theorem Mem.read_writeCells_other (m : Mem) {cs : List (Nat × Byte)} {j : Nat} (h : ∀ c ∈ cs, c.1 ≠ j) :
    (m.writeCells cs).read j = m.read j := by
  induction cs generalizing m with
  | nil => rfl
  | cons c rest ih =>
    rw [Mem.writeCells, ih _ fun e he => h e (by simp [he]), Mem.read_write_other _ _ (Ne.symm (h c (by simp)))]

/-- A read of bytes that all read as before. -/
theorem Mem.readNat_congr {m m' : Mem} {n a : Nat} (h : ∀ j, a ≤ j → j < a + n → m'.read j = m.read j) :
    m'.readNat a n = m.readNat a n := by
  induction n generalizing a with
  | zero => rfl
  | succ n ih =>
    rw [Mem.readNat, Mem.readNat, h a (by omega) (by omega), ih fun j h1 h2 => h j (by omega) (by omega)]

/-- A number written reads back, modulo its bytes. -/
theorem Mem.readNat_writeNat (m : Mem) (n a v : Nat) : (m.writeNat a n v).readNat a n = v % 256 ^ n := by
  induction n generalizing m a v with
  | zero => simp [Mem.readNat, Nat.mod_one]
  | succ n ih =>
    rw [Mem.writeNat, Mem.readNat, ih, Mem.read_writeNat_other _ _ (by omega), Mem.read_write_same, Nat.pow_succ,
      Nat.mul_comm (256 ^ n) 256, Nat.mod_mul]
    simp

/-! ### The canonical form -/

/-- Every listed address is above a. -/
def cellsAbove (a : Nat) (l : List Host.Cell) : Prop := ∀ e ∈ l, a < e.1

theorem risingCells_tail {e : Host.Cell} {l : List Host.Cell} (h : risingCells (e :: l) = true) :
    risingCells l = true := by
  cases l with
  | nil => rfl
  | cons f r => obtain ⟨a, b⟩ := e; obtain ⟨c, d⟩ := f; simp [risingCells] at h; exact h.2

theorem risingCells_above {a : Nat} {b : Byte} {l : List Host.Cell} (h : risingCells ((a, b) :: l) = true) :
    cellsAbove a l := by
  induction l generalizing a b with
  | nil => intro e he; simp at he
  | cons f r ih =>
    obtain ⟨c, d⟩ := f
    simp [risingCells] at h
    intro e he
    rcases List.mem_cons.mp he with rfl | he
    · exact h.1.2
    · exact Nat.lt_trans h.1.2 (ih h.2 e he)

theorem risingCells_head {a : Nat} {b : Byte} {l : List Host.Cell} (h : risingCells ((a, b) :: l) = true) : b ≠ 0 := by
  cases l with
  | nil => simpa [risingCells] using h
  | cons f r => obtain ⟨c, d⟩ := f; simp [risingCells] at h; exact h.1.1

theorem risingCells_cons {a : Nat} {b : Byte} {l : List Host.Cell} (hb : b ≠ 0) (ha : cellsAbove a l)
    (hl : risingCells l = true) : risingCells ((a, b) :: l) = true := by
  cases l with
  | nil => simpa [risingCells] using hb
  | cons f r =>
    obtain ⟨c, d⟩ := f
    have := ha (c, d) (by simp)
    simp only [risingCells, hl, Bool.and_true, Bool.and_eq_true, bne_iff_ne, decide_eq_true_eq]
    exact ⟨hb, this⟩

theorem risingCells_filter {l : List Host.Cell} (p : Host.Cell → Bool) (h : risingCells l = true) :
    risingCells (l.filter p) = true := by
  induction l with
  | nil => rfl
  | cons e rest ih =>
    have ht := ih (risingCells_tail h)
    rw [List.filter_cons]
    split
    · obtain ⟨a, b⟩ := e
      exact risingCells_cons (risingCells_head h)
        (fun c hc => risingCells_above h c (List.mem_filter.mp hc).1) ht
    · exact ht

theorem assocSet_above {c a : Nat} {b : Byte} {l : List Host.Cell} (h : cellsAbove c l) (hca : c < a) :
    cellsAbove c (assocSet l a b) := by
  induction l with
  | nil => intro e he; rw [assocSet, List.mem_singleton] at he; subst he; exact hca
  | cons f rest ih =>
    obtain ⟨a', b'⟩ := f
    have hr : cellsAbove c rest := fun e he => h e (by simp [he])
    have h0 : c < a' := h (a', b') (by simp)
    intro e he
    simp only [assocSet] at he
    split at he
    · rcases List.mem_cons.mp he with rfl | he
      · exact hca
      · exact h e he
    · split at he
      · rcases List.mem_cons.mp he with rfl | he
        · exact hca
        · exact hr e he
      · rcases List.mem_cons.mp he with rfl | he
        · exact h0
        · exact ih hr e he

theorem risingCells_set (l : List Host.Cell) (a : Nat) {b : Byte} (hb : b ≠ 0) (h : risingCells l = true) :
    risingCells (assocSet l a b) = true := by
  induction l with
  | nil => exact risingCells_cons hb (fun e he => absurd he List.not_mem_nil) rfl
  | cons f rest ih =>
    obtain ⟨a', b'⟩ := f
    have ht := risingCells_tail h
    have hab := risingCells_above h
    simp only [assocSet]
    split
    · rename_i hlt
      refine risingCells_cons hb ?_ h
      intro e he
      rcases List.mem_cons.mp he with rfl | he
      · exact hlt
      · exact Nat.lt_trans hlt (hab e he)
    · split
      · rename_i _ heq
        subst heq
        exact risingCells_cons hb hab ht
      · exact risingCells_cons (risingCells_head h) (assocSet_above hab (by omega)) (ih ht)

theorem Mem.wf_cells {m : Mem} (h : m.wf = true) : risingCells m.cells = true := by
  simp [Mem.wf] at h; exact h.1

theorem Mem.wf_poison {m : Mem} (h : m.wf = true) : risingNats m.poison = true := by
  simp [Mem.wf] at h; exact h.2

theorem Mem.wf_write {m : Mem} (a : Nat) (b : Byte) (h : m.wf = true) : (m.write a b).wf = true := by
  simp only [Mem.wf, Mem.write, Bool.and_eq_true]
  refine ⟨?_, Mem.wf_poison h⟩
  split
  · exact risingCells_filter _ (Mem.wf_cells h)
  · rename_i hb; exact risingCells_set _ a hb (Mem.wf_cells h)

theorem Mem.wf_writeNat {m : Mem} (n a v : Nat) (h : m.wf = true) : (m.writeNat a n v).wf = true := by
  induction n generalizing m a v with
  | zero => exact h
  | succ n ih => exact ih _ _ (Mem.wf_write a _ h)

theorem Mem.wf_writeBytes {m : Mem} (bs : List Byte) (a : Nat) (h : m.wf = true) : (m.writeBytes a bs).wf = true := by
  induction bs generalizing m a with
  | nil => exact h
  | cons b rest ih => exact ih _ (Mem.wf_write a b h)

theorem Mem.wf_writeCells {m : Mem} (cs : List (Nat × Byte)) (h : m.wf = true) : (m.writeCells cs).wf = true := by
  induction cs generalizing m with
  | nil => exact h
  | cons c rest ih => exact ih (Mem.wf_write c.1 c.2 h)

/-! ### Poison marks -/

theorem risingNats_above {a : Nat} {l : List Nat} (h : risingNats (a :: l) = true) : ∀ e ∈ l, a < e := by
  induction l generalizing a with
  | nil => intro e he; simp at he
  | cons f r ih =>
    simp [risingNats] at h
    intro e he
    rcases List.mem_cons.mp he with rfl | he
    · exact h.1
    · exact Nat.lt_trans h.1 (ih h.2 e he)

theorem risingNats_tail {a : Nat} {l : List Nat} (h : risingNats (a :: l) = true) : risingNats l = true := by
  cases l with
  | nil => rfl
  | cons f r => simp [risingNats] at h; exact h.2

theorem risingNats_cons {a : Nat} {l : List Nat} (ha : ∀ e ∈ l, a < e) (h : risingNats l = true) :
    risingNats (a :: l) = true := by
  cases l with
  | nil => rfl
  | cons f r => simp [risingNats, ha f (by simp), h]

theorem insertNat_above {c k : Nat} {l : List Nat} (h : ∀ e ∈ l, c < e) (hk : c < k) : ∀ e ∈ insertNat l k, c < e := by
  induction l with
  | nil => intro e he; simp [insertNat] at he; omega
  | cons a rest ih =>
    intro e he
    simp only [insertNat] at he
    split at he
    · rcases List.mem_cons.mp he with rfl | he
      · exact hk
      · exact h e he
    · split at he
      · exact h e he
      · rcases List.mem_cons.mp he with rfl | he
        · exact h _ (by simp)
        · exact ih (fun e he => h e (by simp [he])) e he

theorem risingNats_insert {l : List Nat} (k : Nat) (h : risingNats l = true) : risingNats (insertNat l k) = true := by
  induction l with
  | nil => rfl
  | cons a rest ih =>
    simp only [insertNat]
    split
    · rename_i hk
      refine risingNats_cons ?_ h
      intro e he
      rcases List.mem_cons.mp he with rfl | he
      · exact hk
      · exact Nat.lt_trans hk (risingNats_above h e he)
    · split
      · exact h
      · exact risingNats_cons (insertNat_above (risingNats_above h) (by omega)) (ih (risingNats_tail h))

theorem risingNats_filter {l : List Nat} (p : Nat → Bool) (h : risingNats l = true) : risingNats (l.filter p) = true := by
  induction l with
  | nil => rfl
  | cons a rest ih =>
    have ht := ih (risingNats_tail h)
    rw [List.filter_cons]
    split
    · exact risingNats_cons (fun e he => risingNats_above h e (List.mem_filter.mp he).1) ht
    · exact ht

theorem risingNats_foldl_insert (ks : List Nat) {l : List Nat} (h : risingNats l = true) :
    risingNats (ks.foldl insertNat l) = true := by
  induction ks generalizing l with
  | nil => exact h
  | cons k rest ih => exact ih (risingNats_insert k h)

theorem Mem.wf_spoil {m : Mem} (u a n : Nat) (h : m.wf = true) : (m.spoil u a n).wf = true := by
  simp [Mem.wf, Mem.spoil, Mem.wf_cells h, risingNats_foldl_insert _ (Mem.wf_poison h)]

theorem Mem.wf_clean {m : Mem} (u a n : Nat) (h : m.wf = true) : (m.clean u a n).wf = true := by
  simp only [Mem.wf, Mem.clean, Bool.and_eq_true]
  exact ⟨Mem.wf_cells h, risingNats_filter _ (Mem.wf_poison h)⟩

theorem Mem.wf_putCells {m : Mem} (u : Nat) (cs : List (Nat × Byte)) (h : m.wf = true) : (m.putCells u cs).wf = true := by
  simp only [Mem.wf, Mem.putCells, Bool.and_eq_true]
  exact ⟨Mem.wf_cells (Mem.wf_writeCells cs h), risingNats_filter _ (Mem.wf_poison h)⟩

@[simp] theorem Mem.read_clean (m : Mem) (u a n j : Nat) : (m.clean u a n).read j = m.read j := rfl

@[simp] theorem Mem.readNat_clean (m : Mem) (u a n j k : Nat) : (m.clean u a n).readNat j k = m.readNat j k :=
  Mem.readNat_congr fun _ _ _ => rfl

end Sys2Proof.Machine
end

