-- ==== Sys2Proof/Laws/State.lean ====
section
/-! SUPPORT. What each update of the machine, of a die, of a core and of a slot leaves in every field: one lemma per
field per update. -/

namespace Sys2Proof.Machine
open Sys2Proof

/-! ### The machine -/

@[simp] theorem State.setDie_clk (s : State) (d : Nat) (x : Die) : (s.setDie d x).clk = s.clk := rfl
@[simp] theorem State.setDie_phase (s : State) (d : Nat) (x : Die) : (s.setDie d x).phase = s.phase := rfl
@[simp] theorem State.setDie_now (s : State) (d : Nat) (x : Die) : (s.setDie d x).now = s.now := rfl
@[simp] theorem State.setDie_agenda (s : State) (d : Nat) (x : Die) : (s.setDie d x).agenda = s.agenda := rfl
@[simp] theorem State.setDie_turn (s : State) (d : Nat) (x : Die) : (s.setDie d x).turn = s.turn := rfl
@[simp] theorem State.setDie_cur (s : State) (d : Nat) (x : Die) : (s.setDie d x).cur = s.cur := rfl
@[simp] theorem State.setDie_fresh (s : State) (d : Nat) (x : Die) : (s.setDie d x).fresh = s.fresh := rfl
@[simp] theorem State.setDie_ids (s : State) (d : Nat) (x : Die) : (s.setDie d x).ids = s.ids := rfl
@[simp] theorem State.setDie_dims (s : State) (d : Nat) (x : Die) : (s.setDie d x).dims = s.dims := rfl
@[simp] theorem State.setDie_dies (s : State) (d : Nat) (x : Die) : (s.setDie d x).dies = s.dies.set d x := rfl
@[simp] theorem State.setDie_hostMem (s : State) (d : Nat) (x : Die) : (s.setDie d x).hostMem = s.hostMem := rfl
@[simp] theorem State.setDie_hostLink (s : State) (d : Nat) (x : Die) : (s.setDie d x).hostLink = s.hostLink := rfl
@[simp] theorem State.setDie_watch (s : State) (d : Nat) (x : Die) : (s.setDie d x).watch = s.watch := rfl
@[simp] theorem State.setDie_packets (s : State) (d : Nat) (x : Die) : (s.setDie d x).packets = s.packets := rfl
@[simp] theorem State.setDie_saves (s : State) (d : Nat) (x : Die) : (s.setDie d x).saves = s.saves := rfl
@[simp] theorem State.setDie_powered (s : State) (d : Nat) (x : Die) : (s.setDie d x).powered = s.powered := rfl

@[simp] theorem State.modDie_clk (s : State) (d : Nat) (f : Die → Die) : (s.modDie d f).clk = s.clk := rfl
@[simp] theorem State.modDie_phase (s : State) (d : Nat) (f : Die → Die) : (s.modDie d f).phase = s.phase := rfl
@[simp] theorem State.modDie_now (s : State) (d : Nat) (f : Die → Die) : (s.modDie d f).now = s.now := rfl
@[simp] theorem State.modDie_agenda (s : State) (d : Nat) (f : Die → Die) : (s.modDie d f).agenda = s.agenda := rfl
@[simp] theorem State.modDie_turn (s : State) (d : Nat) (f : Die → Die) : (s.modDie d f).turn = s.turn := rfl
@[simp] theorem State.modDie_cur (s : State) (d : Nat) (f : Die → Die) : (s.modDie d f).cur = s.cur := rfl
@[simp] theorem State.modDie_fresh (s : State) (d : Nat) (f : Die → Die) : (s.modDie d f).fresh = s.fresh := rfl
@[simp] theorem State.modDie_ids (s : State) (d : Nat) (f : Die → Die) : (s.modDie d f).ids = s.ids := rfl
@[simp] theorem State.modDie_dims (s : State) (d : Nat) (f : Die → Die) : (s.modDie d f).dims = s.dims := rfl
@[simp] theorem State.modDie_hostMem (s : State) (d : Nat) (f : Die → Die) : (s.modDie d f).hostMem = s.hostMem := rfl
@[simp] theorem State.modDie_hostLink (s : State) (d : Nat) (f : Die → Die) : (s.modDie d f).hostLink = s.hostLink := rfl
@[simp] theorem State.modDie_watch (s : State) (d : Nat) (f : Die → Die) : (s.modDie d f).watch = s.watch := rfl
@[simp] theorem State.modDie_packets (s : State) (d : Nat) (f : Die → Die) : (s.modDie d f).packets = s.packets := rfl
@[simp] theorem State.modDie_saves (s : State) (d : Nat) (f : Die → Die) : (s.modDie d f).saves = s.saves := rfl
@[simp] theorem State.modDie_powered (s : State) (d : Nat) (f : Die → Die) : (s.modDie d f).powered = s.powered := rfl

@[simp] theorem State.setCore_clk (s : State) (d c : Nat) (k : Core) : (s.setCore d c k).clk = s.clk := rfl
@[simp] theorem State.setCore_phase (s : State) (d c : Nat) (k : Core) : (s.setCore d c k).phase = s.phase := rfl
@[simp] theorem State.setCore_now (s : State) (d c : Nat) (k : Core) : (s.setCore d c k).now = s.now := rfl
@[simp] theorem State.setCore_agenda (s : State) (d c : Nat) (k : Core) : (s.setCore d c k).agenda = s.agenda := rfl
@[simp] theorem State.setCore_turn (s : State) (d c : Nat) (k : Core) : (s.setCore d c k).turn = s.turn := rfl
@[simp] theorem State.setCore_cur (s : State) (d c : Nat) (k : Core) : (s.setCore d c k).cur = s.cur := rfl
@[simp] theorem State.setCore_fresh (s : State) (d c : Nat) (k : Core) : (s.setCore d c k).fresh = s.fresh := rfl
@[simp] theorem State.setCore_ids (s : State) (d c : Nat) (k : Core) : (s.setCore d c k).ids = s.ids := rfl
@[simp] theorem State.setCore_dims (s : State) (d c : Nat) (k : Core) : (s.setCore d c k).dims = s.dims := rfl
@[simp] theorem State.setCore_hostMem (s : State) (d c : Nat) (k : Core) : (s.setCore d c k).hostMem = s.hostMem := rfl
@[simp] theorem State.setCore_hostLink (s : State) (d c : Nat) (k : Core) : (s.setCore d c k).hostLink = s.hostLink := rfl
@[simp] theorem State.setCore_watch (s : State) (d c : Nat) (k : Core) : (s.setCore d c k).watch = s.watch := rfl
@[simp] theorem State.setCore_packets (s : State) (d c : Nat) (k : Core) : (s.setCore d c k).packets = s.packets := rfl
@[simp] theorem State.setCore_saves (s : State) (d c : Nat) (k : Core) : (s.setCore d c k).saves = s.saves := rfl
@[simp] theorem State.setCore_powered (s : State) (d c : Nat) (k : Core) : (s.setCore d c k).powered = s.powered := rfl

@[simp] theorem State.modCore_clk (s : State) (d c : Nat) (f : Core → Core) : (s.modCore d c f).clk = s.clk := rfl
@[simp] theorem State.modCore_phase (s : State) (d c : Nat) (f : Core → Core) : (s.modCore d c f).phase = s.phase := rfl
@[simp] theorem State.modCore_now (s : State) (d c : Nat) (f : Core → Core) : (s.modCore d c f).now = s.now := rfl
@[simp] theorem State.modCore_agenda (s : State) (d c : Nat) (f : Core → Core) : (s.modCore d c f).agenda = s.agenda := rfl
@[simp] theorem State.modCore_turn (s : State) (d c : Nat) (f : Core → Core) : (s.modCore d c f).turn = s.turn := rfl
@[simp] theorem State.modCore_cur (s : State) (d c : Nat) (f : Core → Core) : (s.modCore d c f).cur = s.cur := rfl
@[simp] theorem State.modCore_fresh (s : State) (d c : Nat) (f : Core → Core) : (s.modCore d c f).fresh = s.fresh := rfl
@[simp] theorem State.modCore_ids (s : State) (d c : Nat) (f : Core → Core) : (s.modCore d c f).ids = s.ids := rfl
@[simp] theorem State.modCore_dims (s : State) (d c : Nat) (f : Core → Core) : (s.modCore d c f).dims = s.dims := rfl
@[simp] theorem State.modCore_hostMem (s : State) (d c : Nat) (f : Core → Core) : (s.modCore d c f).hostMem = s.hostMem := rfl
@[simp] theorem State.modCore_hostLink (s : State) (d c : Nat) (f : Core → Core) : (s.modCore d c f).hostLink = s.hostLink := rfl
@[simp] theorem State.modCore_watch (s : State) (d c : Nat) (f : Core → Core) : (s.modCore d c f).watch = s.watch := rfl
@[simp] theorem State.modCore_packets (s : State) (d c : Nat) (f : Core → Core) : (s.modCore d c f).packets = s.packets := rfl
@[simp] theorem State.modCore_saves (s : State) (d c : Nat) (f : Core → Core) : (s.modCore d c f).saves = s.saves := rfl
@[simp] theorem State.modCore_powered (s : State) (d c : Nat) (f : Core → Core) : (s.modCore d c f).powered = s.powered := rfl

@[simp] theorem State.modSlot_clk (s : State) (d c i : Nat) (f : Slot → Slot) : (s.modSlot d c i f).clk = s.clk := rfl
@[simp] theorem State.modSlot_phase (s : State) (d c i : Nat) (f : Slot → Slot) : (s.modSlot d c i f).phase = s.phase := rfl
@[simp] theorem State.modSlot_now (s : State) (d c i : Nat) (f : Slot → Slot) : (s.modSlot d c i f).now = s.now := rfl
@[simp] theorem State.modSlot_agenda (s : State) (d c i : Nat) (f : Slot → Slot) : (s.modSlot d c i f).agenda = s.agenda := rfl
@[simp] theorem State.modSlot_turn (s : State) (d c i : Nat) (f : Slot → Slot) : (s.modSlot d c i f).turn = s.turn := rfl
@[simp] theorem State.modSlot_cur (s : State) (d c i : Nat) (f : Slot → Slot) : (s.modSlot d c i f).cur = s.cur := rfl
@[simp] theorem State.modSlot_fresh (s : State) (d c i : Nat) (f : Slot → Slot) : (s.modSlot d c i f).fresh = s.fresh := rfl
@[simp] theorem State.modSlot_ids (s : State) (d c i : Nat) (f : Slot → Slot) : (s.modSlot d c i f).ids = s.ids := rfl
@[simp] theorem State.modSlot_dims (s : State) (d c i : Nat) (f : Slot → Slot) : (s.modSlot d c i f).dims = s.dims := rfl
@[simp] theorem State.modSlot_hostMem (s : State) (d c i : Nat) (f : Slot → Slot) : (s.modSlot d c i f).hostMem = s.hostMem := rfl
@[simp] theorem State.modSlot_hostLink (s : State) (d c i : Nat) (f : Slot → Slot) : (s.modSlot d c i f).hostLink = s.hostLink := rfl
@[simp] theorem State.modSlot_watch (s : State) (d c i : Nat) (f : Slot → Slot) : (s.modSlot d c i f).watch = s.watch := rfl
@[simp] theorem State.modSlot_packets (s : State) (d c i : Nat) (f : Slot → Slot) : (s.modSlot d c i f).packets = s.packets := rfl
@[simp] theorem State.modSlot_saves (s : State) (d c i : Nat) (f : Slot → Slot) : (s.modSlot d c i f).saves = s.saves := rfl
@[simp] theorem State.modSlot_powered (s : State) (d c i : Nat) (f : Slot → Slot) : (s.modSlot d c i f).powered = s.powered := rfl

@[simp] theorem State.upDie_clk (s : State) (f : Die → Die) : (s.upDie f).clk = s.clk := rfl
@[simp] theorem State.upDie_phase (s : State) (f : Die → Die) : (s.upDie f).phase = s.phase := rfl
@[simp] theorem State.upDie_now (s : State) (f : Die → Die) : (s.upDie f).now = s.now := rfl
@[simp] theorem State.upDie_agenda (s : State) (f : Die → Die) : (s.upDie f).agenda = s.agenda := rfl
@[simp] theorem State.upDie_turn (s : State) (f : Die → Die) : (s.upDie f).turn = s.turn := rfl
@[simp] theorem State.upDie_cur (s : State) (f : Die → Die) : (s.upDie f).cur = s.cur := rfl
@[simp] theorem State.upDie_fresh (s : State) (f : Die → Die) : (s.upDie f).fresh = s.fresh := rfl
@[simp] theorem State.upDie_ids (s : State) (f : Die → Die) : (s.upDie f).ids = s.ids := rfl
@[simp] theorem State.upDie_dims (s : State) (f : Die → Die) : (s.upDie f).dims = s.dims := rfl
@[simp] theorem State.upDie_hostMem (s : State) (f : Die → Die) : (s.upDie f).hostMem = s.hostMem := rfl
@[simp] theorem State.upDie_hostLink (s : State) (f : Die → Die) : (s.upDie f).hostLink = s.hostLink := rfl
@[simp] theorem State.upDie_watch (s : State) (f : Die → Die) : (s.upDie f).watch = s.watch := rfl
@[simp] theorem State.upDie_packets (s : State) (f : Die → Die) : (s.upDie f).packets = s.packets := rfl
@[simp] theorem State.upDie_saves (s : State) (f : Die → Die) : (s.upDie f).saves = s.saves := rfl
@[simp] theorem State.upDie_powered (s : State) (f : Die → Die) : (s.upDie f).powered = s.powered := rfl

@[simp] theorem State.upHere_clk (s : State) (f : Core → Core) : (s.upHere f).clk = s.clk := rfl
@[simp] theorem State.upHere_phase (s : State) (f : Core → Core) : (s.upHere f).phase = s.phase := rfl
@[simp] theorem State.upHere_now (s : State) (f : Core → Core) : (s.upHere f).now = s.now := rfl
@[simp] theorem State.upHere_agenda (s : State) (f : Core → Core) : (s.upHere f).agenda = s.agenda := rfl
@[simp] theorem State.upHere_turn (s : State) (f : Core → Core) : (s.upHere f).turn = s.turn := rfl
@[simp] theorem State.upHere_cur (s : State) (f : Core → Core) : (s.upHere f).cur = s.cur := rfl
@[simp] theorem State.upHere_fresh (s : State) (f : Core → Core) : (s.upHere f).fresh = s.fresh := rfl
@[simp] theorem State.upHere_ids (s : State) (f : Core → Core) : (s.upHere f).ids = s.ids := rfl
@[simp] theorem State.upHere_dims (s : State) (f : Core → Core) : (s.upHere f).dims = s.dims := rfl
@[simp] theorem State.upHere_hostMem (s : State) (f : Core → Core) : (s.upHere f).hostMem = s.hostMem := rfl
@[simp] theorem State.upHere_hostLink (s : State) (f : Core → Core) : (s.upHere f).hostLink = s.hostLink := rfl
@[simp] theorem State.upHere_watch (s : State) (f : Core → Core) : (s.upHere f).watch = s.watch := rfl
@[simp] theorem State.upHere_packets (s : State) (f : Core → Core) : (s.upHere f).packets = s.packets := rfl
@[simp] theorem State.upHere_saves (s : State) (f : Core → Core) : (s.upHere f).saves = s.saves := rfl
@[simp] theorem State.upHere_powered (s : State) (f : Core → Core) : (s.upHere f).powered = s.powered := rfl

@[simp] theorem State.upMe_clk (s : State) (f : Slot → Slot) : (s.upMe f).clk = s.clk := rfl
@[simp] theorem State.upMe_phase (s : State) (f : Slot → Slot) : (s.upMe f).phase = s.phase := rfl
@[simp] theorem State.upMe_now (s : State) (f : Slot → Slot) : (s.upMe f).now = s.now := rfl
@[simp] theorem State.upMe_agenda (s : State) (f : Slot → Slot) : (s.upMe f).agenda = s.agenda := rfl
@[simp] theorem State.upMe_turn (s : State) (f : Slot → Slot) : (s.upMe f).turn = s.turn := rfl
@[simp] theorem State.upMe_cur (s : State) (f : Slot → Slot) : (s.upMe f).cur = s.cur := rfl
@[simp] theorem State.upMe_fresh (s : State) (f : Slot → Slot) : (s.upMe f).fresh = s.fresh := rfl
@[simp] theorem State.upMe_ids (s : State) (f : Slot → Slot) : (s.upMe f).ids = s.ids := rfl
@[simp] theorem State.upMe_dims (s : State) (f : Slot → Slot) : (s.upMe f).dims = s.dims := rfl
@[simp] theorem State.upMe_hostMem (s : State) (f : Slot → Slot) : (s.upMe f).hostMem = s.hostMem := rfl
@[simp] theorem State.upMe_hostLink (s : State) (f : Slot → Slot) : (s.upMe f).hostLink = s.hostLink := rfl
@[simp] theorem State.upMe_watch (s : State) (f : Slot → Slot) : (s.upMe f).watch = s.watch := rfl
@[simp] theorem State.upMe_packets (s : State) (f : Slot → Slot) : (s.upMe f).packets = s.packets := rfl
@[simp] theorem State.upMe_saves (s : State) (f : Slot → Slot) : (s.upMe f).saves = s.saves := rfl
@[simp] theorem State.upMe_powered (s : State) (f : Slot → Slot) : (s.upMe f).powered = s.powered := rfl

@[simp] theorem State.as_clk (s : State) (w : Subject) : (s.as w).clk = s.clk := rfl
@[simp] theorem State.as_phase (s : State) (w : Subject) : (s.as w).phase = s.phase := rfl
@[simp] theorem State.as_now (s : State) (w : Subject) : (s.as w).now = s.now := rfl
@[simp] theorem State.as_agenda (s : State) (w : Subject) : (s.as w).agenda = s.agenda := rfl
@[simp] theorem State.as_turn (s : State) (w : Subject) : (s.as w).turn = s.turn := rfl
@[simp] theorem State.as_cur (s : State) (w : Subject) : (s.as w).cur = w := rfl
@[simp] theorem State.as_fresh (s : State) (w : Subject) : (s.as w).fresh = s.fresh := rfl
@[simp] theorem State.as_ids (s : State) (w : Subject) : (s.as w).ids = s.ids := rfl
@[simp] theorem State.as_dims (s : State) (w : Subject) : (s.as w).dims = s.dims := rfl
@[simp] theorem State.as_dies (s : State) (w : Subject) : (s.as w).dies = s.dies := rfl
@[simp] theorem State.as_hostMem (s : State) (w : Subject) : (s.as w).hostMem = s.hostMem := rfl
@[simp] theorem State.as_hostLink (s : State) (w : Subject) : (s.as w).hostLink = s.hostLink := rfl
@[simp] theorem State.as_watch (s : State) (w : Subject) : (s.as w).watch = s.watch := rfl
@[simp] theorem State.as_packets (s : State) (w : Subject) : (s.as w).packets = s.packets := rfl
@[simp] theorem State.as_saves (s : State) (w : Subject) : (s.as w).saves = s.saves := rfl
@[simp] theorem State.as_powered (s : State) (w : Subject) : (s.as w).powered = s.powered := rfl

@[simp] theorem State.wx_clk (s : State) (r : BitVec 6) (v : Word) (n : Nat) : (s.wx r v n).clk = s.clk := rfl
@[simp] theorem State.wx_phase (s : State) (r : BitVec 6) (v : Word) (n : Nat) : (s.wx r v n).phase = s.phase := rfl
@[simp] theorem State.wx_now (s : State) (r : BitVec 6) (v : Word) (n : Nat) : (s.wx r v n).now = s.now := rfl
@[simp] theorem State.wx_agenda (s : State) (r : BitVec 6) (v : Word) (n : Nat) : (s.wx r v n).agenda = s.agenda := rfl
@[simp] theorem State.wx_turn (s : State) (r : BitVec 6) (v : Word) (n : Nat) : (s.wx r v n).turn = s.turn := rfl
@[simp] theorem State.wx_cur (s : State) (r : BitVec 6) (v : Word) (n : Nat) : (s.wx r v n).cur = s.cur := rfl
@[simp] theorem State.wx_fresh (s : State) (r : BitVec 6) (v : Word) (n : Nat) : (s.wx r v n).fresh = s.fresh := rfl
@[simp] theorem State.wx_ids (s : State) (r : BitVec 6) (v : Word) (n : Nat) : (s.wx r v n).ids = s.ids := rfl
@[simp] theorem State.wx_dims (s : State) (r : BitVec 6) (v : Word) (n : Nat) : (s.wx r v n).dims = s.dims := rfl
@[simp] theorem State.wx_hostMem (s : State) (r : BitVec 6) (v : Word) (n : Nat) : (s.wx r v n).hostMem = s.hostMem := rfl
@[simp] theorem State.wx_hostLink (s : State) (r : BitVec 6) (v : Word) (n : Nat) : (s.wx r v n).hostLink = s.hostLink := rfl
@[simp] theorem State.wx_watch (s : State) (r : BitVec 6) (v : Word) (n : Nat) : (s.wx r v n).watch = s.watch := rfl
@[simp] theorem State.wx_packets (s : State) (r : BitVec 6) (v : Word) (n : Nat) : (s.wx r v n).packets = s.packets := rfl
@[simp] theorem State.wx_saves (s : State) (r : BitVec 6) (v : Word) (n : Nat) : (s.wx r v n).saves = s.saves := rfl
@[simp] theorem State.wx_powered (s : State) (r : BitVec 6) (v : Word) (n : Nat) : (s.wx r v n).powered = s.powered := rfl

@[simp] theorem State.goto_clk (s : State) (p : Word) : (s.goto p).clk = s.clk := rfl
@[simp] theorem State.goto_phase (s : State) (p : Word) : (s.goto p).phase = s.phase := rfl
@[simp] theorem State.goto_now (s : State) (p : Word) : (s.goto p).now = s.now := rfl
@[simp] theorem State.goto_agenda (s : State) (p : Word) : (s.goto p).agenda = s.agenda := rfl
@[simp] theorem State.goto_turn (s : State) (p : Word) : (s.goto p).turn = s.turn := rfl
@[simp] theorem State.goto_cur (s : State) (p : Word) : (s.goto p).cur = s.cur := rfl
@[simp] theorem State.goto_fresh (s : State) (p : Word) : (s.goto p).fresh = s.fresh := rfl
@[simp] theorem State.goto_ids (s : State) (p : Word) : (s.goto p).ids = s.ids := rfl
@[simp] theorem State.goto_dims (s : State) (p : Word) : (s.goto p).dims = s.dims := rfl
@[simp] theorem State.goto_hostMem (s : State) (p : Word) : (s.goto p).hostMem = s.hostMem := rfl
@[simp] theorem State.goto_hostLink (s : State) (p : Word) : (s.goto p).hostLink = s.hostLink := rfl
@[simp] theorem State.goto_watch (s : State) (p : Word) : (s.goto p).watch = s.watch := rfl
@[simp] theorem State.goto_packets (s : State) (p : Word) : (s.goto p).packets = s.packets := rfl
@[simp] theorem State.goto_saves (s : State) (p : Word) : (s.goto p).saves = s.saves := rfl
@[simp] theorem State.goto_powered (s : State) (p : Word) : (s.goto p).powered = s.powered := rfl

@[simp] theorem State.next4_clk (s : State) : (s.next4).clk = s.clk := rfl
@[simp] theorem State.next4_phase (s : State) : (s.next4).phase = s.phase := rfl
@[simp] theorem State.next4_now (s : State) : (s.next4).now = s.now := rfl
@[simp] theorem State.next4_agenda (s : State) : (s.next4).agenda = s.agenda := rfl
@[simp] theorem State.next4_turn (s : State) : (s.next4).turn = s.turn := rfl
@[simp] theorem State.next4_cur (s : State) : (s.next4).cur = s.cur := rfl
@[simp] theorem State.next4_fresh (s : State) : (s.next4).fresh = s.fresh := rfl
@[simp] theorem State.next4_ids (s : State) : (s.next4).ids = s.ids := rfl
@[simp] theorem State.next4_dims (s : State) : (s.next4).dims = s.dims := rfl
@[simp] theorem State.next4_hostMem (s : State) : (s.next4).hostMem = s.hostMem := rfl
@[simp] theorem State.next4_hostLink (s : State) : (s.next4).hostLink = s.hostLink := rfl
@[simp] theorem State.next4_watch (s : State) : (s.next4).watch = s.watch := rfl
@[simp] theorem State.next4_packets (s : State) : (s.next4).packets = s.packets := rfl
@[simp] theorem State.next4_saves (s : State) : (s.next4).saves = s.saves := rfl
@[simp] theorem State.next4_powered (s : State) : (s.next4).powered = s.powered := rfl

@[simp] theorem State.stamp_clk (s : State) : (s.stamp).clk = s.clk := rfl
@[simp] theorem State.stamp_phase (s : State) : (s.stamp).phase = s.phase := rfl
@[simp] theorem State.stamp_now (s : State) : (s.stamp).now = s.now := rfl
@[simp] theorem State.stamp_agenda (s : State) : (s.stamp).agenda = s.agenda := rfl
@[simp] theorem State.stamp_turn (s : State) : (s.stamp).turn = s.turn := rfl
@[simp] theorem State.stamp_cur (s : State) : (s.stamp).cur = s.cur := rfl
@[simp] theorem State.stamp_fresh (s : State) : (s.stamp).fresh = s.fresh + 1 := rfl
@[simp] theorem State.stamp_ids (s : State) : (s.stamp).ids = s.ids := rfl
@[simp] theorem State.stamp_dims (s : State) : (s.stamp).dims = s.dims := rfl
@[simp] theorem State.stamp_dies (s : State) : (s.stamp).dies = s.dies := rfl
@[simp] theorem State.stamp_hostMem (s : State) : (s.stamp).hostMem = s.hostMem := rfl
@[simp] theorem State.stamp_hostLink (s : State) : (s.stamp).hostLink = s.hostLink := rfl
@[simp] theorem State.stamp_watch (s : State) : (s.stamp).watch = s.watch := rfl
@[simp] theorem State.stamp_packets (s : State) : (s.stamp).packets = s.packets := rfl
@[simp] theorem State.stamp_saves (s : State) : (s.stamp).saves = s.saves := rfl
@[simp] theorem State.stamp_powered (s : State) : (s.stamp).powered = s.powered := rfl

@[simp] theorem State.newId_clk (s : State) : (s.newId).clk = s.clk := rfl
@[simp] theorem State.newId_phase (s : State) : (s.newId).phase = s.phase := rfl
@[simp] theorem State.newId_now (s : State) : (s.newId).now = s.now := rfl
@[simp] theorem State.newId_agenda (s : State) : (s.newId).agenda = s.agenda := rfl
@[simp] theorem State.newId_turn (s : State) : (s.newId).turn = s.turn := rfl
@[simp] theorem State.newId_cur (s : State) : (s.newId).cur = s.cur := rfl
@[simp] theorem State.newId_fresh (s : State) : (s.newId).fresh = s.fresh := rfl
@[simp] theorem State.newId_ids (s : State) : (s.newId).ids = s.ids + 1 := rfl
@[simp] theorem State.newId_dims (s : State) : (s.newId).dims = s.dims := rfl
@[simp] theorem State.newId_dies (s : State) : (s.newId).dies = s.dies := rfl
@[simp] theorem State.newId_hostMem (s : State) : (s.newId).hostMem = s.hostMem := rfl
@[simp] theorem State.newId_hostLink (s : State) : (s.newId).hostLink = s.hostLink := rfl
@[simp] theorem State.newId_watch (s : State) : (s.newId).watch = s.watch := rfl
@[simp] theorem State.newId_packets (s : State) : (s.newId).packets = s.packets := rfl
@[simp] theorem State.newId_saves (s : State) : (s.newId).saves = s.saves := rfl
@[simp] theorem State.newId_powered (s : State) : (s.newId).powered = s.powered := rfl

@[simp] theorem State.later_clk (s : State) (n : Nat) (e : Ev) : (s.later n e).clk = s.clk := rfl
@[simp] theorem State.later_phase (s : State) (n : Nat) (e : Ev) : (s.later n e).phase = s.phase := rfl
@[simp] theorem State.later_now (s : State) (n : Nat) (e : Ev) : (s.later n e).now = s.now := rfl
@[simp] theorem State.later_agenda (s : State) (n : Nat) (e : Ev) : (s.later n e).agenda = s.agenda ++ [(s.clk + n, e)] := rfl
@[simp] theorem State.later_turn (s : State) (n : Nat) (e : Ev) : (s.later n e).turn = s.turn := rfl
@[simp] theorem State.later_cur (s : State) (n : Nat) (e : Ev) : (s.later n e).cur = s.cur := rfl
@[simp] theorem State.later_fresh (s : State) (n : Nat) (e : Ev) : (s.later n e).fresh = s.fresh := rfl
@[simp] theorem State.later_ids (s : State) (n : Nat) (e : Ev) : (s.later n e).ids = s.ids := rfl
@[simp] theorem State.later_dims (s : State) (n : Nat) (e : Ev) : (s.later n e).dims = s.dims := rfl
@[simp] theorem State.later_dies (s : State) (n : Nat) (e : Ev) : (s.later n e).dies = s.dies := rfl
@[simp] theorem State.later_hostMem (s : State) (n : Nat) (e : Ev) : (s.later n e).hostMem = s.hostMem := rfl
@[simp] theorem State.later_hostLink (s : State) (n : Nat) (e : Ev) : (s.later n e).hostLink = s.hostLink := rfl
@[simp] theorem State.later_watch (s : State) (n : Nat) (e : Ev) : (s.later n e).watch = s.watch := rfl
@[simp] theorem State.later_packets (s : State) (n : Nat) (e : Ev) : (s.later n e).packets = s.packets := rfl
@[simp] theorem State.later_saves (s : State) (n : Nat) (e : Ev) : (s.later n e).saves = s.saves := rfl
@[simp] theorem State.later_powered (s : State) (n : Nat) (e : Ev) : (s.later n e).powered = s.powered := rfl

@[simp] theorem State.soon_clk (s : State) (e : Ev) : (s.soon e).clk = s.clk := rfl
@[simp] theorem State.soon_phase (s : State) (e : Ev) : (s.soon e).phase = s.phase := rfl
@[simp] theorem State.soon_now (s : State) (e : Ev) : (s.soon e).now = s.now ++ [e] := rfl
@[simp] theorem State.soon_agenda (s : State) (e : Ev) : (s.soon e).agenda = s.agenda := rfl
@[simp] theorem State.soon_turn (s : State) (e : Ev) : (s.soon e).turn = s.turn := rfl
@[simp] theorem State.soon_cur (s : State) (e : Ev) : (s.soon e).cur = s.cur := rfl
@[simp] theorem State.soon_fresh (s : State) (e : Ev) : (s.soon e).fresh = s.fresh := rfl
@[simp] theorem State.soon_ids (s : State) (e : Ev) : (s.soon e).ids = s.ids := rfl
@[simp] theorem State.soon_dims (s : State) (e : Ev) : (s.soon e).dims = s.dims := rfl
@[simp] theorem State.soon_dies (s : State) (e : Ev) : (s.soon e).dies = s.dies := rfl
@[simp] theorem State.soon_hostMem (s : State) (e : Ev) : (s.soon e).hostMem = s.hostMem := rfl
@[simp] theorem State.soon_hostLink (s : State) (e : Ev) : (s.soon e).hostLink = s.hostLink := rfl
@[simp] theorem State.soon_watch (s : State) (e : Ev) : (s.soon e).watch = s.watch := rfl
@[simp] theorem State.soon_packets (s : State) (e : Ev) : (s.soon e).packets = s.packets := rfl
@[simp] theorem State.soon_saves (s : State) (e : Ev) : (s.soon e).saves = s.saves := rfl
@[simp] theorem State.soon_powered (s : State) (e : Ev) : (s.soon e).powered = s.powered := rfl

@[simp] theorem State.first_clk (s : State) (es : List Ev) : (s.first es).clk = s.clk := rfl
@[simp] theorem State.first_phase (s : State) (es : List Ev) : (s.first es).phase = s.phase := rfl
@[simp] theorem State.first_now (s : State) (es : List Ev) : (s.first es).now = es ++ s.now := rfl
@[simp] theorem State.first_agenda (s : State) (es : List Ev) : (s.first es).agenda = s.agenda := rfl
@[simp] theorem State.first_turn (s : State) (es : List Ev) : (s.first es).turn = s.turn := rfl
@[simp] theorem State.first_cur (s : State) (es : List Ev) : (s.first es).cur = s.cur := rfl
@[simp] theorem State.first_fresh (s : State) (es : List Ev) : (s.first es).fresh = s.fresh := rfl
@[simp] theorem State.first_ids (s : State) (es : List Ev) : (s.first es).ids = s.ids := rfl
@[simp] theorem State.first_dims (s : State) (es : List Ev) : (s.first es).dims = s.dims := rfl
@[simp] theorem State.first_dies (s : State) (es : List Ev) : (s.first es).dies = s.dies := rfl
@[simp] theorem State.first_hostMem (s : State) (es : List Ev) : (s.first es).hostMem = s.hostMem := rfl
@[simp] theorem State.first_hostLink (s : State) (es : List Ev) : (s.first es).hostLink = s.hostLink := rfl
@[simp] theorem State.first_watch (s : State) (es : List Ev) : (s.first es).watch = s.watch := rfl
@[simp] theorem State.first_packets (s : State) (es : List Ev) : (s.first es).packets = s.packets := rfl
@[simp] theorem State.first_saves (s : State) (es : List Ev) : (s.first es).saves = s.saves := rfl
@[simp] theorem State.first_powered (s : State) (es : List Ev) : (s.first es).powered = s.powered := rfl

@[simp] theorem State.post_clk (s : State) (d k : Nat) (a b : Word) : (s.post d k a b).clk = s.clk := rfl
@[simp] theorem State.post_phase (s : State) (d k : Nat) (a b : Word) : (s.post d k a b).phase = s.phase := rfl
@[simp] theorem State.post_now (s : State) (d k : Nat) (a b : Word) : (s.post d k a b).now = s.now := rfl
@[simp] theorem State.post_agenda (s : State) (d k : Nat) (a b : Word) : (s.post d k a b).agenda = s.agenda := rfl
@[simp] theorem State.post_turn (s : State) (d k : Nat) (a b : Word) : (s.post d k a b).turn = s.turn := rfl
@[simp] theorem State.post_cur (s : State) (d k : Nat) (a b : Word) : (s.post d k a b).cur = s.cur := rfl
@[simp] theorem State.post_fresh (s : State) (d k : Nat) (a b : Word) : (s.post d k a b).fresh = s.fresh := rfl
@[simp] theorem State.post_ids (s : State) (d k : Nat) (a b : Word) : (s.post d k a b).ids = s.ids := rfl
@[simp] theorem State.post_dims (s : State) (d k : Nat) (a b : Word) : (s.post d k a b).dims = s.dims := rfl
@[simp] theorem State.post_hostMem (s : State) (d k : Nat) (a b : Word) : (s.post d k a b).hostMem = s.hostMem := rfl
@[simp] theorem State.post_hostLink (s : State) (d k : Nat) (a b : Word) : (s.post d k a b).hostLink = s.hostLink := rfl
@[simp] theorem State.post_watch (s : State) (d k : Nat) (a b : Word) : (s.post d k a b).watch = s.watch := rfl
@[simp] theorem State.post_packets (s : State) (d k : Nat) (a b : Word) : (s.post d k a b).packets = s.packets := rfl
@[simp] theorem State.post_saves (s : State) (d k : Nat) (a b : Word) : (s.post d k a b).saves = s.saves := rfl
@[simp] theorem State.post_powered (s : State) (d k : Nat) (a b : Word) : (s.post d k a b).powered = s.powered := rfl

@[simp] theorem State.block_clk (s : State) (w : Wait) : (s.block w).clk = s.clk := rfl
@[simp] theorem State.block_phase (s : State) (w : Wait) : (s.block w).phase = s.phase := rfl
@[simp] theorem State.block_now (s : State) (w : Wait) : (s.block w).now = s.now := rfl
@[simp] theorem State.block_agenda (s : State) (w : Wait) : (s.block w).agenda = s.agenda := rfl
@[simp] theorem State.block_turn (s : State) (w : Wait) : (s.block w).turn = s.turn := rfl
@[simp] theorem State.block_cur (s : State) (w : Wait) : (s.block w).cur = s.cur := rfl
@[simp] theorem State.block_fresh (s : State) (w : Wait) : (s.block w).fresh = s.fresh := rfl
@[simp] theorem State.block_ids (s : State) (w : Wait) : (s.block w).ids = s.ids := rfl
@[simp] theorem State.block_dims (s : State) (w : Wait) : (s.block w).dims = s.dims := rfl
@[simp] theorem State.block_hostMem (s : State) (w : Wait) : (s.block w).hostMem = s.hostMem := rfl
@[simp] theorem State.block_hostLink (s : State) (w : Wait) : (s.block w).hostLink = s.hostLink := rfl
@[simp] theorem State.block_watch (s : State) (w : Wait) : (s.block w).watch = s.watch := rfl
@[simp] theorem State.block_packets (s : State) (w : Wait) : (s.block w).packets = s.packets := rfl
@[simp] theorem State.block_saves (s : State) (w : Wait) : (s.block w).saves = s.saves := rfl
@[simp] theorem State.block_powered (s : State) (w : Wait) : (s.block w).powered = s.powered := rfl

@[simp] theorem State.as_die (s : State) (w : Subject) (d : Nat) : (s.as w).die d = s.die d := rfl
@[simp] theorem State.as_core (s : State) (w : Subject) (d c : Nat) : (s.as w).core d c = s.core d c := rfl
@[simp] theorem State.as_slot (s : State) (w : Subject) (d c i : Nat) : (s.as w).slot d c i = s.slot d c i := rfl

@[simp] theorem State.stamp_die (s : State) (d : Nat) : (s.stamp).die d = s.die d := rfl
@[simp] theorem State.stamp_core (s : State) (d c : Nat) : (s.stamp).core d c = s.core d c := rfl
@[simp] theorem State.stamp_slot (s : State) (d c i : Nat) : (s.stamp).slot d c i = s.slot d c i := rfl

@[simp] theorem State.newId_die (s : State) (d : Nat) : (s.newId).die d = s.die d := rfl
@[simp] theorem State.newId_core (s : State) (d c : Nat) : (s.newId).core d c = s.core d c := rfl
@[simp] theorem State.newId_slot (s : State) (d c i : Nat) : (s.newId).slot d c i = s.slot d c i := rfl

@[simp] theorem State.later_die (s : State) (n : Nat) (e : Ev) (d : Nat) : (s.later n e).die d = s.die d := rfl
@[simp] theorem State.later_core (s : State) (n : Nat) (e : Ev) (d c : Nat) : (s.later n e).core d c = s.core d c := rfl
@[simp] theorem State.later_slot (s : State) (n : Nat) (e : Ev) (d c i : Nat) : (s.later n e).slot d c i = s.slot d c i := rfl

@[simp] theorem State.soon_die (s : State) (e : Ev) (d : Nat) : (s.soon e).die d = s.die d := rfl
@[simp] theorem State.soon_core (s : State) (e : Ev) (d c : Nat) : (s.soon e).core d c = s.core d c := rfl
@[simp] theorem State.soon_slot (s : State) (e : Ev) (d c i : Nat) : (s.soon e).slot d c i = s.slot d c i := rfl

@[simp] theorem State.first_die (s : State) (es : List Ev) (d : Nat) : (s.first es).die d = s.die d := rfl
@[simp] theorem State.first_core (s : State) (es : List Ev) (d c : Nat) : (s.first es).core d c = s.core d c := rfl
@[simp] theorem State.first_slot (s : State) (es : List Ev) (d c i : Nat) : (s.first es).slot d c i = s.slot d c i := rfl

/-! ### A die -/

@[simp] theorem Die.setCore_cores (x : Die) (c : Nat) (k : Core) : (x.setCore c k).cores = x.cores.set c k := rfl
@[simp] theorem Die.setCore_hbm (x : Die) (c : Nat) (k : Core) : (x.setCore c k).hbm = x.hbm := rfl
@[simp] theorem Die.setCore_sync (x : Die) (c : Nat) (k : Core) : (x.setCore c k).sync = x.sync := rfl
@[simp] theorem Die.setCore_waiters (x : Die) (c : Nat) (k : Core) : (x.setCore c k).waiters = x.waiters := rfl
@[simp] theorem Die.setCore_rc (x : Die) (c : Nat) (k : Core) : (x.setCore c k).rc = x.rc := rfl
@[simp] theorem Die.setCore_groups (x : Die) (c : Nat) (k : Core) : (x.setCore c k).groups = x.groups := rfl
@[simp] theorem Die.setCore_recs (x : Die) (c : Nat) (k : Core) : (x.setCore c k).recs = x.recs := rfl
@[simp] theorem Die.setCore_queues (x : Die) (c : Nat) (k : Core) : (x.setCore c k).queues = x.queues := rfl
@[simp] theorem Die.setCore_served (x : Die) (c : Nat) (k : Core) : (x.setCore c k).served = x.served := rfl
@[simp] theorem Die.setCore_dispPtr (x : Die) (c : Nat) (k : Core) : (x.setCore c k).dispPtr = x.dispPtr := rfl
@[simp] theorem Die.setCore_spawnPtr (x : Die) (c : Nat) (k : Core) : (x.setCore c k).spawnPtr = x.spawnPtr := rfl
@[simp] theorem Die.setCore_dispDev (x : Die) (c : Nat) (k : Core) : (x.setCore c k).dispDev = x.dispDev := rfl
@[simp] theorem Die.setCore_jobs (x : Die) (c : Nat) (k : Core) : (x.setCore c k).jobs = x.jobs := rfl
@[simp] theorem Die.setCore_deadlines (x : Die) (c : Nat) (k : Core) : (x.setCore c k).deadlines = x.deadlines := rfl
@[simp] theorem Die.setCore_posted (x : Die) (c : Nat) (k : Core) : (x.setCore c k).posted = x.posted := rfl
@[simp] theorem Die.setCore_seqs (x : Die) (c : Nat) (k : Core) : (x.setCore c k).seqs = x.seqs := rfl
@[simp] theorem Die.setCore_graphs (x : Die) (c : Nat) (k : Core) : (x.setCore c k).graphs = x.graphs := rfl
@[simp] theorem Die.setCore_traces (x : Die) (c : Nat) (k : Core) : (x.setCore c k).traces = x.traces := rfl
@[simp] theorem Die.setCore_tokens (x : Die) (c : Nat) (k : Core) : (x.setCore c k).tokens = x.tokens := rfl
@[simp] theorem Die.setCore_toSet (x : Die) (c : Nat) (k : Core) : (x.setCore c k).toSet = x.toSet := rfl
@[simp] theorem Die.setCore_grGid (x : Die) (c : Nat) (k : Core) : (x.setCore c k).grGid = x.grGid := rfl
@[simp] theorem Die.setCore_grAsid (x : Die) (c : Nat) (k : Core) : (x.setCore c k).grAsid = x.grAsid := rfl
@[simp] theorem Die.setCore_grStroke (x : Die) (c : Nat) (k : Core) : (x.setCore c k).grStroke = x.grStroke := rfl
@[simp] theorem Die.setCore_grMode (x : Die) (c : Nat) (k : Core) : (x.setCore c k).grMode = x.grMode := rfl
@[simp] theorem Die.setCore_grStop (x : Die) (c : Nat) (k : Core) : (x.setCore c k).grStop = x.grStop := rfl
@[simp] theorem Die.setCore_capOvf (x : Die) (c : Nat) (k : Core) : (x.setCore c k).capOvf = x.capOvf := rfl
@[simp] theorem Die.setCore_grErr (x : Die) (c : Nat) (k : Core) : (x.setCore c k).grErr = x.grErr := rfl
@[simp] theorem Die.setCore_gmRefine (x : Die) (c : Nat) (k : Core) : (x.setCore c k).gmRefine = x.gmRefine := rfl
@[simp] theorem Die.setCore_gmCapt (x : Die) (c : Nat) (k : Core) : (x.setCore c k).gmCapt = x.gmCapt := rfl
@[simp] theorem Die.setCore_gmRpl (x : Die) (c : Nat) (k : Core) : (x.setCore c k).gmRpl = x.gmRpl := rfl
@[simp] theorem Die.setCore_gmRec (x : Die) (c : Nat) (k : Core) : (x.setCore c k).gmRec = x.gmRec := rfl
@[simp] theorem Die.setCore_grKey (x : Die) (c : Nat) (k : Core) : (x.setCore c k).grKey = x.grKey := rfl
@[simp] theorem Die.setCore_captLog (x : Die) (c : Nat) (k : Core) : (x.setCore c k).captLog = x.captLog := rfl
@[simp] theorem Die.setCore_captBase (x : Die) (c : Nat) (k : Core) : (x.setCore c k).captBase = x.captBase := rfl
@[simp] theorem Die.setCore_captPos (x : Die) (c : Nat) (k : Core) : (x.setCore c k).captPos = x.captPos := rfl
@[simp] theorem Die.setCore_links (x : Die) (c : Nat) (k : Core) : (x.setCore c k).links = x.links := rfl
@[simp] theorem Die.setCore_preDl (x : Die) (c : Nat) (k : Core) : (x.setCore c k).preDl = x.preDl := rfl
@[simp] theorem Die.setCore_hub (x : Die) (c : Nat) (k : Core) : (x.setCore c k).hub = x.hub := rfl
@[simp] theorem Die.setCore_rdy (x : Die) (c : Nat) (k : Core) : (x.setCore c k).rdy = x.rdy := rfl
@[simp] theorem Die.setCore_fltBase (x : Die) (c : Nat) (k : Core) : (x.setCore c k).fltBase = x.fltBase := rfl
@[simp] theorem Die.setCore_fltLog (x : Die) (c : Nat) (k : Core) : (x.setCore c k).fltLog = x.fltLog := rfl
@[simp] theorem Die.setCore_fltHead (x : Die) (c : Nat) (k : Core) : (x.setCore c k).fltHead = x.fltHead := rfl
@[simp] theorem Die.setCore_fltTail (x : Die) (c : Nat) (k : Core) : (x.setCore c k).fltTail = x.fltTail := rfl
@[simp] theorem Die.setCore_fltLost (x : Die) (c : Nat) (k : Core) : (x.setCore c k).fltLost = x.fltLost := rfl
@[simp] theorem Die.setCore_pwrPkg (x : Die) (c : Nat) (k : Core) : (x.setCore c k).pwrPkg = x.pwrPkg := rfl
@[simp] theorem Die.setCore_pwrDie (x : Die) (c : Nat) (k : Core) : (x.setCore c k).pwrDie = x.pwrDie := rfl
@[simp] theorem Die.setCore_pwrMv (x : Die) (c : Nat) (k : Core) : (x.setCore c k).pwrMv = x.pwrMv := rfl
@[simp] theorem Die.setCore_pwrMhz (x : Die) (c : Nat) (k : Core) : (x.setCore c k).pwrMhz = x.pwrMhz := rfl
@[simp] theorem Die.setCore_refNs (x : Die) (c : Nat) (k : Core) : (x.setCore c k).refNs = x.refNs := rfl
@[simp] theorem Die.setCore_refClk (x : Die) (c : Nat) (k : Core) : (x.setCore c k).refClk = x.refClk := rfl
@[simp] theorem Die.setCore_fwVer (x : Die) (c : Nat) (k : Core) : (x.setCore c k).fwVer = x.fwVer := rfl
@[simp] theorem Die.setCore_bootCode (x : Die) (c : Nat) (k : Core) : (x.setCore c k).bootCode = x.bootCode := rfl
@[simp] theorem Die.setCore_fwDigest (x : Die) (c : Nat) (k : Core) : (x.setCore c k).fwDigest = x.fwDigest := rfl
@[simp] theorem Die.setCore_correctable (x : Die) (c : Nat) (k : Core) : (x.setCore c k).correctable = x.correctable := rfl
@[simp] theorem Die.setCore_halted (x : Die) (c : Nat) (k : Core) : (x.setCore c k).halted = x.halted := rfl
@[simp] theorem Die.setCore_hotSince (x : Die) (c : Nat) (k : Core) : (x.setCore c k).hotSince = x.hotSince := rfl
@[simp] theorem Die.setCore_fab (x : Die) (c : Nat) (k : Core) : (x.setCore c k).fab = x.fab := rfl
@[simp] theorem Die.setCore_report (x : Die) (c : Nat) (k : Core) : (x.setCore c k).report = x.report := rfl

/-! ### A core -/

@[simp] theorem Core.setSlot_slots (k : Core) (i : Nat) (x : Slot) : (k.setSlot i x).slots = k.slots.setIfInBounds i x := rfl
@[simp] theorem Core.setSlot_last (k : Core) (i : Nat) (x : Slot) : (k.setSlot i x).last = k.last := rfl
@[simp] theorem Core.setSlot_switching (k : Core) (i : Nat) (x : Slot) : (k.setSlot i x).switching = k.switching := rfl
@[simp] theorem Core.setSlot_sw (k : Core) (i : Nat) (x : Slot) : (k.setSlot i x).sw = k.sw := rfl
@[simp] theorem Core.setSlot_part (k : Core) (i : Nat) (x : Slot) : (k.setSlot i x).part = k.part := rfl
@[simp] theorem Core.setSlot_trapVec (k : Core) (i : Nat) (x : Slot) : (k.setSlot i x).trapVec = k.trapVec := rfl
@[simp] theorem Core.setSlot_latch (k : Core) (i : Nat) (x : Slot) : (k.setSlot i x).latch = k.latch := rfl
@[simp] theorem Core.setSlot_cistern (k : Core) (i : Nat) (x : Slot) : (k.setSlot i x).cistern = k.cistern := rfl
@[simp] theorem Core.setSlot_tmpl (k : Core) (i : Nat) (x : Slot) : (k.setSlot i x).tmpl = k.tmpl := rfl
@[simp] theorem Core.setSlot_tiles (k : Core) (i : Nat) (x : Slot) : (k.setSlot i x).tiles = k.tiles := rfl
@[simp] theorem Core.setSlot_sb (k : Core) (i : Nat) (x : Slot) : (k.setSlot i x).sb = k.sb := rfl
@[simp] theorem Core.setSlot_sbFreed (k : Core) (i : Nat) (x : Slot) : (k.setSlot i x).sbFreed = k.sbFreed := rfl
@[simp] theorem Core.setSlot_stored (k : Core) (i : Nat) (x : Slot) : (k.setSlot i x).stored = k.stored := rfl
@[simp] theorem Core.setSlot_mat (k : Core) (i : Nat) (x : Slot) : (k.setSlot i x).mat = k.mat := rfl
@[simp] theorem Core.setSlot_panels (k : Core) (i : Nat) (x : Slot) : (k.setSlot i x).panels = k.panels := rfl
@[simp] theorem Core.setSlot_panelsBad (k : Core) (i : Nat) (x : Slot) : (k.setSlot i x).panelsBad = k.panelsBad := rfl
@[simp] theorem Core.setSlot_cpy (k : Core) (i : Nat) (x : Slot) : (k.setSlot i x).cpy = k.cpy := rfl
@[simp] theorem Core.setSlot_smp (k : Core) (i : Nat) (x : Slot) : (k.setSlot i x).smp = k.smp := rfl
@[simp] theorem Core.setSlot_comb (k : Core) (i : Nat) (x : Slot) : (k.setSlot i x).comb = k.comb := rfl
@[simp] theorem Core.setSlot_wins (k : Core) (i : Nat) (x : Slot) : (k.setSlot i x).wins = k.wins := rfl
@[simp] theorem Core.setSlot_sg (k : Core) (i : Nat) (x : Slot) : (k.setSlot i x).sg = k.sg := rfl
@[simp] theorem Core.setSlot_turn (k : Core) (i : Nat) (x : Slot) : (k.setSlot i x).turn = k.turn := rfl
@[simp] theorem Core.setSlot_tmo (k : Core) (i : Nat) (x : Slot) : (k.setSlot i x).tmo = k.tmo := rfl
@[simp] theorem Core.setSlot_topo (k : Core) (i : Nat) (x : Slot) : (k.setSlot i x).topo = k.topo := rfl
@[simp] theorem Core.setSlot_awaits (k : Core) (i : Nat) (x : Slot) : (k.setSlot i x).awaits = k.awaits := rfl
@[simp] theorem Core.setSlot_arrivals (k : Core) (i : Nat) (x : Slot) : (k.setSlot i x).arrivals = k.arrivals := rfl
@[simp] theorem Core.setSlot_prefetch (k : Core) (i : Nat) (x : Slot) : (k.setSlot i x).prefetch = k.prefetch := rfl
@[simp] theorem Core.setSlot_temp (k : Core) (i : Nat) (x : Slot) : (k.setSlot i x).temp = k.temp := rfl
@[simp] theorem Core.setSlot_droop (k : Core) (i : Nat) (x : Slot) : (k.setSlot i x).droop = k.droop := rfl
@[simp] theorem Core.setSlot_health (k : Core) (i : Nat) (x : Slot) : (k.setSlot i x).health = k.health := rfl
@[simp] theorem Core.setSlot_tlb (k : Core) (i : Nat) (x : Slot) : (k.setSlot i x).tlb = k.tlb := rfl
@[simp] theorem Core.setSlot_macro_ (k : Core) (i : Nat) (x : Slot) : (k.setSlot i x).macro_ = k.macro_ := rfl
@[simp] theorem Core.setSlot_player (k : Core) (i : Nat) (x : Slot) : (k.setSlot i x).player = k.player := rfl
@[simp] theorem Core.setSlot_nfPol (k : Core) (i : Nat) (x : Slot) : (k.setSlot i x).nfPol = k.nfPol := rfl
@[simp] theorem Core.setSlot_nfOff (k : Core) (i : Nat) (x : Slot) : (k.setSlot i x).nfOff = k.nfOff := rfl
@[simp] theorem Core.setSlot_nfSeen (k : Core) (i : Nat) (x : Slot) : (k.setSlot i x).nfSeen = k.nfSeen := rfl
@[simp] theorem Core.setSlot_nfSrc (k : Core) (i : Nat) (x : Slot) : (k.setSlot i x).nfSrc = k.nfSrc := rfl
@[simp] theorem Core.setSlot_nfToken (k : Core) (i : Nat) (x : Slot) : (k.setSlot i x).nfToken = k.nfToken := rfl
@[simp] theorem Core.setSlot_ctx (k : Core) (i : Nat) (x : Slot) : (k.setSlot i x).ctx = k.ctx := rfl
@[simp] theorem Core.setSlot_rooted (k : Core) (i : Nat) (x : Slot) : (k.setSlot i x).rooted = k.rooted := rfl
@[simp] theorem Core.setSlot_switch (k : Core) (i : Nat) (x : Slot) : (k.setSlot i x).switch = k.switch := rfl
@[simp] theorem Core.setSlot_closed (k : Core) (i : Nat) (x : Slot) : (k.setSlot i x).closed = k.closed := rfl

@[simp] theorem Core.modSlot_last (k : Core) (i : Nat) (f : Slot → Slot) : (k.modSlot i f).last = k.last := rfl
@[simp] theorem Core.modSlot_switching (k : Core) (i : Nat) (f : Slot → Slot) : (k.modSlot i f).switching = k.switching := rfl
@[simp] theorem Core.modSlot_sw (k : Core) (i : Nat) (f : Slot → Slot) : (k.modSlot i f).sw = k.sw := rfl
@[simp] theorem Core.modSlot_part (k : Core) (i : Nat) (f : Slot → Slot) : (k.modSlot i f).part = k.part := rfl
@[simp] theorem Core.modSlot_trapVec (k : Core) (i : Nat) (f : Slot → Slot) : (k.modSlot i f).trapVec = k.trapVec := rfl
@[simp] theorem Core.modSlot_latch (k : Core) (i : Nat) (f : Slot → Slot) : (k.modSlot i f).latch = k.latch := rfl
@[simp] theorem Core.modSlot_cistern (k : Core) (i : Nat) (f : Slot → Slot) : (k.modSlot i f).cistern = k.cistern := rfl
@[simp] theorem Core.modSlot_tmpl (k : Core) (i : Nat) (f : Slot → Slot) : (k.modSlot i f).tmpl = k.tmpl := rfl
@[simp] theorem Core.modSlot_tiles (k : Core) (i : Nat) (f : Slot → Slot) : (k.modSlot i f).tiles = k.tiles := rfl
@[simp] theorem Core.modSlot_sb (k : Core) (i : Nat) (f : Slot → Slot) : (k.modSlot i f).sb = k.sb := rfl
@[simp] theorem Core.modSlot_sbFreed (k : Core) (i : Nat) (f : Slot → Slot) : (k.modSlot i f).sbFreed = k.sbFreed := rfl
@[simp] theorem Core.modSlot_stored (k : Core) (i : Nat) (f : Slot → Slot) : (k.modSlot i f).stored = k.stored := rfl
@[simp] theorem Core.modSlot_mat (k : Core) (i : Nat) (f : Slot → Slot) : (k.modSlot i f).mat = k.mat := rfl
@[simp] theorem Core.modSlot_panels (k : Core) (i : Nat) (f : Slot → Slot) : (k.modSlot i f).panels = k.panels := rfl
@[simp] theorem Core.modSlot_panelsBad (k : Core) (i : Nat) (f : Slot → Slot) : (k.modSlot i f).panelsBad = k.panelsBad := rfl
@[simp] theorem Core.modSlot_cpy (k : Core) (i : Nat) (f : Slot → Slot) : (k.modSlot i f).cpy = k.cpy := rfl
@[simp] theorem Core.modSlot_smp (k : Core) (i : Nat) (f : Slot → Slot) : (k.modSlot i f).smp = k.smp := rfl
@[simp] theorem Core.modSlot_comb (k : Core) (i : Nat) (f : Slot → Slot) : (k.modSlot i f).comb = k.comb := rfl
@[simp] theorem Core.modSlot_wins (k : Core) (i : Nat) (f : Slot → Slot) : (k.modSlot i f).wins = k.wins := rfl
@[simp] theorem Core.modSlot_sg (k : Core) (i : Nat) (f : Slot → Slot) : (k.modSlot i f).sg = k.sg := rfl
@[simp] theorem Core.modSlot_turn (k : Core) (i : Nat) (f : Slot → Slot) : (k.modSlot i f).turn = k.turn := rfl
@[simp] theorem Core.modSlot_tmo (k : Core) (i : Nat) (f : Slot → Slot) : (k.modSlot i f).tmo = k.tmo := rfl
@[simp] theorem Core.modSlot_topo (k : Core) (i : Nat) (f : Slot → Slot) : (k.modSlot i f).topo = k.topo := rfl
@[simp] theorem Core.modSlot_awaits (k : Core) (i : Nat) (f : Slot → Slot) : (k.modSlot i f).awaits = k.awaits := rfl
@[simp] theorem Core.modSlot_arrivals (k : Core) (i : Nat) (f : Slot → Slot) : (k.modSlot i f).arrivals = k.arrivals := rfl
@[simp] theorem Core.modSlot_prefetch (k : Core) (i : Nat) (f : Slot → Slot) : (k.modSlot i f).prefetch = k.prefetch := rfl
@[simp] theorem Core.modSlot_temp (k : Core) (i : Nat) (f : Slot → Slot) : (k.modSlot i f).temp = k.temp := rfl
@[simp] theorem Core.modSlot_droop (k : Core) (i : Nat) (f : Slot → Slot) : (k.modSlot i f).droop = k.droop := rfl
@[simp] theorem Core.modSlot_health (k : Core) (i : Nat) (f : Slot → Slot) : (k.modSlot i f).health = k.health := rfl
@[simp] theorem Core.modSlot_tlb (k : Core) (i : Nat) (f : Slot → Slot) : (k.modSlot i f).tlb = k.tlb := rfl
@[simp] theorem Core.modSlot_macro_ (k : Core) (i : Nat) (f : Slot → Slot) : (k.modSlot i f).macro_ = k.macro_ := rfl
@[simp] theorem Core.modSlot_player (k : Core) (i : Nat) (f : Slot → Slot) : (k.modSlot i f).player = k.player := rfl
@[simp] theorem Core.modSlot_nfPol (k : Core) (i : Nat) (f : Slot → Slot) : (k.modSlot i f).nfPol = k.nfPol := rfl
@[simp] theorem Core.modSlot_nfOff (k : Core) (i : Nat) (f : Slot → Slot) : (k.modSlot i f).nfOff = k.nfOff := rfl
@[simp] theorem Core.modSlot_nfSeen (k : Core) (i : Nat) (f : Slot → Slot) : (k.modSlot i f).nfSeen = k.nfSeen := rfl
@[simp] theorem Core.modSlot_nfSrc (k : Core) (i : Nat) (f : Slot → Slot) : (k.modSlot i f).nfSrc = k.nfSrc := rfl
@[simp] theorem Core.modSlot_nfToken (k : Core) (i : Nat) (f : Slot → Slot) : (k.modSlot i f).nfToken = k.nfToken := rfl
@[simp] theorem Core.modSlot_ctx (k : Core) (i : Nat) (f : Slot → Slot) : (k.modSlot i f).ctx = k.ctx := rfl
@[simp] theorem Core.modSlot_rooted (k : Core) (i : Nat) (f : Slot → Slot) : (k.modSlot i f).rooted = k.rooted := rfl
@[simp] theorem Core.modSlot_switch (k : Core) (i : Nat) (f : Slot → Slot) : (k.modSlot i f).switch = k.switch := rfl
@[simp] theorem Core.modSlot_closed (k : Core) (i : Nat) (f : Slot → Slot) : (k.modSlot i f).closed = k.closed := rfl

@[simp] theorem Core.setLatch_slots (k : Core) (u : Nat) (r : Row) : (k.setLatch u r).slots = k.slots := rfl
@[simp] theorem Core.setLatch_last (k : Core) (u : Nat) (r : Row) : (k.setLatch u r).last = k.last := rfl
@[simp] theorem Core.setLatch_switching (k : Core) (u : Nat) (r : Row) : (k.setLatch u r).switching = k.switching := rfl
@[simp] theorem Core.setLatch_sw (k : Core) (u : Nat) (r : Row) : (k.setLatch u r).sw = k.sw := rfl
@[simp] theorem Core.setLatch_part (k : Core) (u : Nat) (r : Row) : (k.setLatch u r).part = k.part := rfl
@[simp] theorem Core.setLatch_trapVec (k : Core) (u : Nat) (r : Row) : (k.setLatch u r).trapVec = k.trapVec := rfl
@[simp] theorem Core.setLatch_latch (k : Core) (u : Nat) (r : Row) : (k.setLatch u r).latch = k.latch.setIfInBounds u (some r) := rfl
@[simp] theorem Core.setLatch_cistern (k : Core) (u : Nat) (r : Row) : (k.setLatch u r).cistern = k.cistern := rfl
@[simp] theorem Core.setLatch_tmpl (k : Core) (u : Nat) (r : Row) : (k.setLatch u r).tmpl = k.tmpl := rfl
@[simp] theorem Core.setLatch_tiles (k : Core) (u : Nat) (r : Row) : (k.setLatch u r).tiles = k.tiles := rfl
@[simp] theorem Core.setLatch_sb (k : Core) (u : Nat) (r : Row) : (k.setLatch u r).sb = k.sb := rfl
@[simp] theorem Core.setLatch_sbFreed (k : Core) (u : Nat) (r : Row) : (k.setLatch u r).sbFreed = k.sbFreed := rfl
@[simp] theorem Core.setLatch_stored (k : Core) (u : Nat) (r : Row) : (k.setLatch u r).stored = k.stored := rfl
@[simp] theorem Core.setLatch_mat (k : Core) (u : Nat) (r : Row) : (k.setLatch u r).mat = k.mat := rfl
@[simp] theorem Core.setLatch_panels (k : Core) (u : Nat) (r : Row) : (k.setLatch u r).panels = k.panels := rfl
@[simp] theorem Core.setLatch_panelsBad (k : Core) (u : Nat) (r : Row) : (k.setLatch u r).panelsBad = k.panelsBad := rfl
@[simp] theorem Core.setLatch_cpy (k : Core) (u : Nat) (r : Row) : (k.setLatch u r).cpy = k.cpy := rfl
@[simp] theorem Core.setLatch_smp (k : Core) (u : Nat) (r : Row) : (k.setLatch u r).smp = k.smp := rfl
@[simp] theorem Core.setLatch_comb (k : Core) (u : Nat) (r : Row) : (k.setLatch u r).comb = k.comb := rfl
@[simp] theorem Core.setLatch_wins (k : Core) (u : Nat) (r : Row) : (k.setLatch u r).wins = k.wins := rfl
@[simp] theorem Core.setLatch_sg (k : Core) (u : Nat) (r : Row) : (k.setLatch u r).sg = k.sg := rfl
@[simp] theorem Core.setLatch_turn (k : Core) (u : Nat) (r : Row) : (k.setLatch u r).turn = k.turn := rfl
@[simp] theorem Core.setLatch_tmo (k : Core) (u : Nat) (r : Row) : (k.setLatch u r).tmo = k.tmo := rfl
@[simp] theorem Core.setLatch_topo (k : Core) (u : Nat) (r : Row) : (k.setLatch u r).topo = k.topo := rfl
@[simp] theorem Core.setLatch_awaits (k : Core) (u : Nat) (r : Row) : (k.setLatch u r).awaits = k.awaits := rfl
@[simp] theorem Core.setLatch_arrivals (k : Core) (u : Nat) (r : Row) : (k.setLatch u r).arrivals = k.arrivals := rfl
@[simp] theorem Core.setLatch_prefetch (k : Core) (u : Nat) (r : Row) : (k.setLatch u r).prefetch = k.prefetch := rfl
@[simp] theorem Core.setLatch_temp (k : Core) (u : Nat) (r : Row) : (k.setLatch u r).temp = k.temp := rfl
@[simp] theorem Core.setLatch_droop (k : Core) (u : Nat) (r : Row) : (k.setLatch u r).droop = k.droop := rfl
@[simp] theorem Core.setLatch_health (k : Core) (u : Nat) (r : Row) : (k.setLatch u r).health = k.health := rfl
@[simp] theorem Core.setLatch_tlb (k : Core) (u : Nat) (r : Row) : (k.setLatch u r).tlb = k.tlb := rfl
@[simp] theorem Core.setLatch_macro_ (k : Core) (u : Nat) (r : Row) : (k.setLatch u r).macro_ = k.macro_ := rfl
@[simp] theorem Core.setLatch_player (k : Core) (u : Nat) (r : Row) : (k.setLatch u r).player = k.player := rfl
@[simp] theorem Core.setLatch_nfPol (k : Core) (u : Nat) (r : Row) : (k.setLatch u r).nfPol = k.nfPol := rfl
@[simp] theorem Core.setLatch_nfOff (k : Core) (u : Nat) (r : Row) : (k.setLatch u r).nfOff = k.nfOff := rfl
@[simp] theorem Core.setLatch_nfSeen (k : Core) (u : Nat) (r : Row) : (k.setLatch u r).nfSeen = k.nfSeen := rfl
@[simp] theorem Core.setLatch_nfSrc (k : Core) (u : Nat) (r : Row) : (k.setLatch u r).nfSrc = k.nfSrc := rfl
@[simp] theorem Core.setLatch_nfToken (k : Core) (u : Nat) (r : Row) : (k.setLatch u r).nfToken = k.nfToken := rfl
@[simp] theorem Core.setLatch_ctx (k : Core) (u : Nat) (r : Row) : (k.setLatch u r).ctx = k.ctx := rfl
@[simp] theorem Core.setLatch_rooted (k : Core) (u : Nat) (r : Row) : (k.setLatch u r).rooted = k.rooted := rfl
@[simp] theorem Core.setLatch_switch (k : Core) (u : Nat) (r : Row) : (k.setLatch u r).switch = k.switch := rfl
@[simp] theorem Core.setLatch_closed (k : Core) (u : Nat) (r : Row) : (k.setLatch u r).closed = k.closed := rfl

/-! ### A slot -/

@[simp] theorem Slot.trapped_st (x : Slot) (t : Trap) (v : BitVec 62) (k : Nat) : (x.trapped t v k).st = x.st := rfl
@[simp] theorem Slot.trapped_wait (x : Slot) (t : Trap) (v : BitVec 62) (k : Nat) : (x.trapped t v k).wait = .none := rfl
@[simp] theorem Slot.trapped_pc (x : Slot) (t : Trap) (v : BitVec 62) (k : Nat) : (x.trapped t v k).pc = v ++ (0 : BitVec 2) := rfl
@[simp] theorem Slot.trapped_x (x : Slot) (t : Trap) (v : BitVec 62) (k : Nat) : (x.trapped t v k).x = x.x := rfl
@[simp] theorem Slot.trapped_lock (x : Slot) (t : Trap) (v : BitVec 62) (k : Nat) : (x.trapped t v k).lock = x.lock := rfl
@[simp] theorem Slot.trapped_pend (x : Slot) (t : Trap) (v : BitVec 62) (k : Nat) : (x.trapped t v k).pend = x.pend := rfl
@[simp] theorem Slot.trapped_lateX (x : Slot) (t : Trap) (v : BitVec 62) (k : Nat) : (x.trapped t v k).lateX = x.lateX := rfl
@[simp] theorem Slot.trapped_lateRow (x : Slot) (t : Trap) (v : BitVec 62) (k : Nat) : (x.trapped t v k).lateRow = x.lateRow := rfl
@[simp] theorem Slot.trapped_vw (x : Slot) (t : Trap) (v : BitVec 62) (k : Nat) : (x.trapped t v k).vw = x.vw := rfl
@[simp] theorem Slot.trapped_inh (x : Slot) (t : Trap) (v : BitVec 62) (k : Nat) : (x.trapped t v k).inh = true := rfl
@[simp] theorem Slot.trapped_priv (x : Slot) (t : Trap) (v : BitVec 62) (k : Nat) : (x.trapped t v k).priv = true := rfl
@[simp] theorem Slot.trapped_dbgp (x : Slot) (t : Trap) (v : BitVec 62) (k : Nat) : (x.trapped t v k).dbgp = x.dbgp := rfl
@[simp] theorem Slot.trapped_chkw (x : Slot) (t : Trap) (v : BitVec 62) (k : Nat) : (x.trapped t v k).chkw = x.chkw := rfl
@[simp] theorem Slot.trapped_lands (x : Slot) (t : Trap) (v : BitVec 62) (k : Nat) : (x.trapped t v k).lands = [] := rfl
@[simp] theorem Slot.trapped_lrec (x : Slot) (t : Trap) (v : BitVec 62) (k : Nat) : (x.trapped t v k).lrec = x.capture k := rfl
@[simp] theorem Slot.trapped_armed (x : Slot) (t : Trap) (v : BitVec 62) (k : Nat) : (x.trapped t v k).armed = false := rfl
@[simp] theorem Slot.trapped_lsDepth (x : Slot) (t : Trap) (v : BitVec 62) (k : Nat) : (x.trapped t v k).lsDepth = x.lsDepth := rfl
@[simp] theorem Slot.trapped_lsIdx (x : Slot) (t : Trap) (v : BitVec 62) (k : Nat) : (x.trapped t v k).lsIdx = x.lsIdx := rfl
@[simp] theorem Slot.trapped_lsTop (x : Slot) (t : Trap) (v : BitVec 62) (k : Nat) : (x.trapped t v k).lsTop = x.lsTop := rfl
@[simp] theorem Slot.trapped_lsEnd (x : Slot) (t : Trap) (v : BitVec 62) (k : Nat) : (x.trapped t v k).lsEnd = x.lsEnd := rfl
@[simp] theorem Slot.trapped_trapPc (x : Slot) (t : Trap) (v : BitVec 62) (k : Nat) : (x.trapped t v k).trapPc = t.pc := rfl
@[simp] theorem Slot.trapped_trapCause (x : Slot) (t : Trap) (v : BitVec 62) (k : Nat) : (x.trapped t v k).trapCause = BitVec.ofNat 6 t.cause := rfl
@[simp] theorem Slot.trapped_trapVal (x : Slot) (t : Trap) (v : BitVec 62) (k : Nat) : (x.trapped t v k).trapVal = t.val := rfl
@[simp] theorem Slot.trapped_trapInfo (x : Slot) (t : Trap) (v : BitVec 62) (k : Nat) : (x.trapped t v k).trapInfo = t.info := rfl
@[simp] theorem Slot.trapped_trapDepth (x : Slot) (t : Trap) (v : BitVec 62) (k : Nat) : (x.trapped t v k).trapDepth = BitVec.ofNat 3 x.lsDepth := rfl
@[simp] theorem Slot.trapped_trapPriv (x : Slot) (t : Trap) (v : BitVec 62) (k : Nat) : (x.trapped t v k).trapPriv = x.priv := rfl
@[simp] theorem Slot.trapped_trapScr (x : Slot) (t : Trap) (v : BitVec 62) (k : Nat) : (x.trapped t v k).trapScr = x.trapScr := rfl
@[simp] theorem Slot.trapped_bs (x : Slot) (t : Trap) (v : BitVec 62) (k : Nat) : (x.trapped t v k).bs = x.bs := rfl
@[simp] theorem Slot.trapped_bar (x : Slot) (t : Trap) (v : BitVec 62) (k : Nat) : (x.trapped t v k).bar = x.bar := rfl
@[simp] theorem Slot.trapped_task (x : Slot) (t : Trap) (v : BitVec 62) (k : Nat) : (x.trapped t v k).task = x.task := rfl
@[simp] theorem Slot.trapped_guards (x : Slot) (t : Trap) (v : BitVec 62) (k : Nat) : (x.trapped t v k).guards = x.guards := rfl
@[simp] theorem Slot.trapped_arrived (x : Slot) (t : Trap) (v : BitVec 62) (k : Nat) : (x.trapped t v k).arrived = x.arrived := rfl
@[simp] theorem Slot.trapped_arrivedAt (x : Slot) (t : Trap) (v : BitVec 62) (k : Nat) : (x.trapped t v k).arrivedAt = x.arrivedAt := rfl
@[simp] theorem Slot.trapped_xl (x : Slot) (t : Trap) (v : BitVec 62) (k : Nat) : (x.trapped t v k).xl = [] := rfl
@[simp] theorem Slot.trapped_attempts (x : Slot) (t : Trap) (v : BitVec 62) (k : Nat) : (x.trapped t v k).attempts = x.attempts := rfl
@[simp] theorem Slot.trapped_stopAsked (x : Slot) (t : Trap) (v : BitVec 62) (k : Nat) : (x.trapped t v k).stopAsked = x.stopAsked := rfl
@[simp] theorem Slot.trapped_stopped (x : Slot) (t : Trap) (v : BitVec 62) (k : Nat) : (x.trapped t v k).stopped = x.stopped := rfl

@[simp] theorem Slot.eret_st (x : Slot) : (x.eret).st = x.st := rfl
@[simp] theorem Slot.eret_wait (x : Slot) : (x.eret).wait = x.wait := rfl
@[simp] theorem Slot.eret_pc (x : Slot) : (x.eret).pc = alignPc x.trapPc := rfl
@[simp] theorem Slot.eret_x (x : Slot) : (x.eret).x = x.x := rfl
@[simp] theorem Slot.eret_lock (x : Slot) : (x.eret).lock = x.lock := rfl
@[simp] theorem Slot.eret_pend (x : Slot) : (x.eret).pend = x.pend := rfl
@[simp] theorem Slot.eret_lateX (x : Slot) : (x.eret).lateX = x.lateX := rfl
@[simp] theorem Slot.eret_lateRow (x : Slot) : (x.eret).lateRow = x.lateRow := rfl
@[simp] theorem Slot.eret_vw (x : Slot) : (x.eret).vw = x.vw := rfl
@[simp] theorem Slot.eret_inh (x : Slot) : (x.eret).inh = false := rfl
@[simp] theorem Slot.eret_priv (x : Slot) : (x.eret).priv = x.trapPriv := rfl
@[simp] theorem Slot.eret_dbgp (x : Slot) : (x.eret).dbgp = x.dbgp := rfl
@[simp] theorem Slot.eret_chkw (x : Slot) : (x.eret).chkw = x.chkw := rfl
@[simp] theorem Slot.eret_lands (x : Slot) : (x.eret).lands = x.lands := rfl
@[simp] theorem Slot.eret_lrec (x : Slot) : (x.eret).lrec = x.lrec := rfl
@[simp] theorem Slot.eret_armed (x : Slot) : (x.eret).armed = !x.lrec.isEmpty := rfl
@[simp] theorem Slot.eret_lsDepth (x : Slot) : (x.eret).lsDepth = x.lsDepth := rfl
@[simp] theorem Slot.eret_lsIdx (x : Slot) : (x.eret).lsIdx = x.lsIdx := rfl
@[simp] theorem Slot.eret_lsTop (x : Slot) : (x.eret).lsTop = x.lsTop := rfl
@[simp] theorem Slot.eret_lsEnd (x : Slot) : (x.eret).lsEnd = x.lsEnd := rfl
@[simp] theorem Slot.eret_trapPc (x : Slot) : (x.eret).trapPc = x.trapPc := rfl
@[simp] theorem Slot.eret_trapCause (x : Slot) : (x.eret).trapCause = x.trapCause := rfl
@[simp] theorem Slot.eret_trapVal (x : Slot) : (x.eret).trapVal = x.trapVal := rfl
@[simp] theorem Slot.eret_trapInfo (x : Slot) : (x.eret).trapInfo = x.trapInfo := rfl
@[simp] theorem Slot.eret_trapDepth (x : Slot) : (x.eret).trapDepth = x.trapDepth := rfl
@[simp] theorem Slot.eret_trapPriv (x : Slot) : (x.eret).trapPriv = x.trapPriv := rfl
@[simp] theorem Slot.eret_trapScr (x : Slot) : (x.eret).trapScr = x.trapScr := rfl
@[simp] theorem Slot.eret_bs (x : Slot) : (x.eret).bs = x.bs := rfl
@[simp] theorem Slot.eret_bar (x : Slot) : (x.eret).bar = x.bar := rfl
@[simp] theorem Slot.eret_task (x : Slot) : (x.eret).task = x.task := rfl
@[simp] theorem Slot.eret_guards (x : Slot) : (x.eret).guards = x.guards := rfl
@[simp] theorem Slot.eret_arrived (x : Slot) : (x.eret).arrived = x.arrived := rfl
@[simp] theorem Slot.eret_arrivedAt (x : Slot) : (x.eret).arrivedAt = x.arrivedAt := rfl
@[simp] theorem Slot.eret_xl (x : Slot) : (x.eret).xl = x.xl := rfl
@[simp] theorem Slot.eret_attempts (x : Slot) : (x.eret).attempts = x.attempts := rfl
@[simp] theorem Slot.eret_stopAsked (x : Slot) : (x.eret).stopAsked = x.stopAsked := rfl
@[simp] theorem Slot.eret_stopped (x : Slot) : (x.eret).stopped = x.stopped := rfl

@[simp] theorem Slot.wx_st (x : Slot) (r : BitVec 6) (v : Word) : (x.wx r v).st = x.st := by
  unfold Slot.wx; split <;> rfl
@[simp] theorem Slot.wx_wait (x : Slot) (r : BitVec 6) (v : Word) : (x.wx r v).wait = x.wait := by
  unfold Slot.wx; split <;> rfl
@[simp] theorem Slot.wx_pc (x : Slot) (r : BitVec 6) (v : Word) : (x.wx r v).pc = x.pc := by
  unfold Slot.wx; split <;> rfl
@[simp] theorem Slot.wx_lock (x : Slot) (r : BitVec 6) (v : Word) : (x.wx r v).lock = x.lock := by
  unfold Slot.wx; split <;> rfl
@[simp] theorem Slot.wx_pend (x : Slot) (r : BitVec 6) (v : Word) : (x.wx r v).pend = x.pend := by
  unfold Slot.wx; split <;> rfl
@[simp] theorem Slot.wx_lateX (x : Slot) (r : BitVec 6) (v : Word) : (x.wx r v).lateX = x.lateX := by
  unfold Slot.wx; split <;> rfl
@[simp] theorem Slot.wx_lateRow (x : Slot) (r : BitVec 6) (v : Word) : (x.wx r v).lateRow = x.lateRow := by
  unfold Slot.wx; split <;> rfl
@[simp] theorem Slot.wx_vw (x : Slot) (r : BitVec 6) (v : Word) : (x.wx r v).vw = x.vw := by
  unfold Slot.wx; split <;> rfl
@[simp] theorem Slot.wx_inh (x : Slot) (r : BitVec 6) (v : Word) : (x.wx r v).inh = x.inh := by
  unfold Slot.wx; split <;> rfl
@[simp] theorem Slot.wx_priv (x : Slot) (r : BitVec 6) (v : Word) : (x.wx r v).priv = x.priv := by
  unfold Slot.wx; split <;> rfl
@[simp] theorem Slot.wx_dbgp (x : Slot) (r : BitVec 6) (v : Word) : (x.wx r v).dbgp = x.dbgp := by
  unfold Slot.wx; split <;> rfl
@[simp] theorem Slot.wx_chkw (x : Slot) (r : BitVec 6) (v : Word) : (x.wx r v).chkw = x.chkw := by
  unfold Slot.wx; split <;> rfl
@[simp] theorem Slot.wx_lands (x : Slot) (r : BitVec 6) (v : Word) : (x.wx r v).lands = x.lands := by
  unfold Slot.wx; split <;> rfl
@[simp] theorem Slot.wx_lrec (x : Slot) (r : BitVec 6) (v : Word) : (x.wx r v).lrec = x.lrec := by
  unfold Slot.wx; split <;> rfl
@[simp] theorem Slot.wx_armed (x : Slot) (r : BitVec 6) (v : Word) : (x.wx r v).armed = x.armed := by
  unfold Slot.wx; split <;> rfl
@[simp] theorem Slot.wx_lsDepth (x : Slot) (r : BitVec 6) (v : Word) : (x.wx r v).lsDepth = x.lsDepth := by
  unfold Slot.wx; split <;> rfl
@[simp] theorem Slot.wx_lsIdx (x : Slot) (r : BitVec 6) (v : Word) : (x.wx r v).lsIdx = x.lsIdx := by
  unfold Slot.wx; split <;> rfl
@[simp] theorem Slot.wx_lsTop (x : Slot) (r : BitVec 6) (v : Word) : (x.wx r v).lsTop = x.lsTop := by
  unfold Slot.wx; split <;> rfl
@[simp] theorem Slot.wx_lsEnd (x : Slot) (r : BitVec 6) (v : Word) : (x.wx r v).lsEnd = x.lsEnd := by
  unfold Slot.wx; split <;> rfl
@[simp] theorem Slot.wx_trapPc (x : Slot) (r : BitVec 6) (v : Word) : (x.wx r v).trapPc = x.trapPc := by
  unfold Slot.wx; split <;> rfl
@[simp] theorem Slot.wx_trapCause (x : Slot) (r : BitVec 6) (v : Word) : (x.wx r v).trapCause = x.trapCause := by
  unfold Slot.wx; split <;> rfl
@[simp] theorem Slot.wx_trapVal (x : Slot) (r : BitVec 6) (v : Word) : (x.wx r v).trapVal = x.trapVal := by
  unfold Slot.wx; split <;> rfl
@[simp] theorem Slot.wx_trapInfo (x : Slot) (r : BitVec 6) (v : Word) : (x.wx r v).trapInfo = x.trapInfo := by
  unfold Slot.wx; split <;> rfl
@[simp] theorem Slot.wx_trapDepth (x : Slot) (r : BitVec 6) (v : Word) : (x.wx r v).trapDepth = x.trapDepth := by
  unfold Slot.wx; split <;> rfl
@[simp] theorem Slot.wx_trapPriv (x : Slot) (r : BitVec 6) (v : Word) : (x.wx r v).trapPriv = x.trapPriv := by
  unfold Slot.wx; split <;> rfl
@[simp] theorem Slot.wx_trapScr (x : Slot) (r : BitVec 6) (v : Word) : (x.wx r v).trapScr = x.trapScr := by
  unfold Slot.wx; split <;> rfl
@[simp] theorem Slot.wx_bs (x : Slot) (r : BitVec 6) (v : Word) : (x.wx r v).bs = x.bs := by
  unfold Slot.wx; split <;> rfl
@[simp] theorem Slot.wx_bar (x : Slot) (r : BitVec 6) (v : Word) : (x.wx r v).bar = x.bar := by
  unfold Slot.wx; split <;> rfl
@[simp] theorem Slot.wx_task (x : Slot) (r : BitVec 6) (v : Word) : (x.wx r v).task = x.task := by
  unfold Slot.wx; split <;> rfl
@[simp] theorem Slot.wx_guards (x : Slot) (r : BitVec 6) (v : Word) : (x.wx r v).guards = x.guards := by
  unfold Slot.wx; split <;> rfl
@[simp] theorem Slot.wx_arrived (x : Slot) (r : BitVec 6) (v : Word) : (x.wx r v).arrived = x.arrived := by
  unfold Slot.wx; split <;> rfl
@[simp] theorem Slot.wx_arrivedAt (x : Slot) (r : BitVec 6) (v : Word) : (x.wx r v).arrivedAt = x.arrivedAt := by
  unfold Slot.wx; split <;> rfl
@[simp] theorem Slot.wx_xl (x : Slot) (r : BitVec 6) (v : Word) : (x.wx r v).xl = x.xl := by
  unfold Slot.wx; split <;> rfl
@[simp] theorem Slot.wx_attempts (x : Slot) (r : BitVec 6) (v : Word) : (x.wx r v).attempts = x.attempts := by
  unfold Slot.wx; split <;> rfl
@[simp] theorem Slot.wx_stopAsked (x : Slot) (r : BitVec 6) (v : Word) : (x.wx r v).stopAsked = x.stopAsked := by
  unfold Slot.wx; split <;> rfl
@[simp] theorem Slot.wx_stopped (x : Slot) (r : BitVec 6) (v : Word) : (x.wx r v).stopped = x.stopped := by
  unfold Slot.wx; split <;> rfl

end Sys2Proof.Machine
end

