-- ==== Sys2Proof/Laws/Places.lean ====
section
/-! SUPPORT. What a write at a place, a change of slots and a trap do, each said once. -/

namespace Sys2Proof.Machine
open Sys2Proof

/-! ### A write at a place (R6, R438) -/

theorem Mem.read_writeNat_same (m : Mem) {n i : Nat} (a v : Nat) (h : i < n) :
    (m.writeNat a n v).read (a + i) = BitVec.ofNat 8 (v / 256 ^ i) := by
  induction n generalizing m a v i with
  | zero => omega
  | succ n ih =>
    rw [Mem.writeNat]
    cases i with
    | zero => rw [Mem.read_writeNat_other _ _ (by omega)]; simp
    | succ i =>
      rw [show a + (i + 1) = a + 1 + i by omega, ih _ _ _ (by omega)]
      rw [Nat.pow_succ, Nat.mul_comm, Nat.div_div_eq_div_mul]

/-- A place that a write reaches: any but the constant store. -/
theorem State.peek_poke_same (s : State) {l : Loc} {n i : Nat} (v : Nat) (hl : ∀ o, l ≠ .const o) (h : i < n) :
    (s.poke l n v).peek (l.plus i) 1 = v / 256 ^ i % 256 := by
  have key : ∀ (m : Mem) (u a : Nat), ((m.writeNat a n v).clean u a n).readNat (a + i) 1 = v / 256 ^ i % 256 := by
    intro m u a
    rw [Mem.readNat_clean]
    show ((m.writeNat a n v).read (a + i)).toNat + 256 * 0 = _
    rw [Mem.read_writeNat_same m a v h]; simp
  cases l with
  | cistern d c o => simp [State.poke, State.modMem, State.peek, Loc.plus, key]
  | hbm d o => simp [State.poke, State.modMem, State.peek, Loc.plus, key]
  | host a => simp [State.poke, State.modMem, State.peek, Loc.plus, key]
  | sync d o => simp [State.poke, State.modMem, State.peek, Loc.plus, key]
  | const o => exact absurd rfl (hl o)

theorem State.peek_poke_other (s : State) {l m : Loc} {n : Nat} (v : Nat) (h : ∀ i, i < n → m ≠ l.plus i) :
    (s.poke l n v).peek m 1 = s.peek m 1 := by
  have key : ∀ (x : Mem) (u a j : Nat), (∀ i, i < n → j ≠ a + i) →
      ((x.writeNat a n v).clean u a n).readNat j 1 = x.readNat j 1 := by
    intro x u a j hj
    rw [Mem.readNat_clean]
    refine Mem.readNat_congr fun k h1 h2 => Mem.read_writeNat_other x v ?_
    by_cases hk : k < a
    · exact .inl hk
    · refine .inr ?_
      by_cases hn : k < a + n
      · exact absurd (by omega : j = a + (k - a)) (hj (k - a) (by omega))
      · omega
  cases l with
  | const o => rfl
  | host a =>
    cases m with
    | host b => simpa [State.poke, State.modMem, State.peek] using key s.hostMem unitHbm a b fun i hi e => h i hi (by simp [Loc.plus, e])
    | _ => rfl
  | hbm d o =>
    cases m with
    | hbm e p =>
      by_cases hd : e = d
      · subst hd
        simpa [State.poke, State.modMem, State.peek] using key (s.die e).hbm unitHbm o p fun i hi e' => h i hi (by simp [Loc.plus, e'])
      · simp [State.poke, State.modMem, State.peek, State.die_modDie_other s _ hd]
    | sync e p =>
      by_cases hd : e = d
      · subst hd; simp [State.poke, State.modMem, State.peek]
      · simp [State.poke, State.modMem, State.peek, State.die_modDie_other s _ hd]
    | cistern e c p =>
      by_cases hd : e = d
      · subst hd; simp [State.poke, State.modMem, State.peek, State.core, Die.core]
      · simp [State.poke, State.modMem, State.peek, State.core, State.die_modDie_other s _ hd]
    | _ => rfl
  | sync d o =>
    cases m with
    | sync e p =>
      by_cases hd : e = d
      · subst hd
        simpa [State.poke, State.modMem, State.peek] using key (s.die e).sync unitSram o p fun i hi e' => h i hi (by simp [Loc.plus, e'])
      · simp [State.poke, State.modMem, State.peek, State.die_modDie_other s _ hd]
    | hbm e p =>
      by_cases hd : e = d
      · subst hd; simp [State.poke, State.modMem, State.peek]
      · simp [State.poke, State.modMem, State.peek, State.die_modDie_other s _ hd]
    | cistern e c p =>
      by_cases hd : e = d
      · subst hd; simp [State.poke, State.modMem, State.peek, State.core, Die.core]
      · simp [State.poke, State.modMem, State.peek, State.core, State.die_modDie_other s _ hd]
    | _ => rfl
  | cistern d c o =>
    cases m with
    | cistern e b p =>
      by_cases hd : e = d ∧ b = c
      · obtain ⟨rfl, rfl⟩ := hd
        simpa [State.poke, State.modMem, State.peek] using key (s.core e b).cistern unitSram o p fun i hi e' => h i hi (by simp [Loc.plus, e'])
      · simp [State.poke, State.modMem, State.peek, State.core_modCore_other s _ (by omega : e ≠ d ∨ b ≠ c)]
    | hbm e p =>
      by_cases hd : e = d
      · subst hd; simp [State.poke, State.modMem, State.peek, State.modCore, State.setCore]
      · simp [State.poke, State.modMem, State.peek, State.modCore, State.setCore, State.die_modDie_other s _ hd]
    | sync e p =>
      by_cases hd : e = d
      · subst hd; simp [State.poke, State.modMem, State.peek, State.modCore, State.setCore]
      · simp [State.poke, State.modMem, State.peek, State.modCore, State.setCore, State.die_modDie_other s _ hd]
    | _ => rfl

/-- A write at a place stores its bytes and leaves every other byte. -/
theorem State.stores_poke (s : State) {l : Loc} (n v : Nat) (hl : ∀ o, l ≠ .const o) : s.Stores (s.poke l n v) l n v :=
  ⟨fun _ h => s.peek_poke_same v hl h, fun _ h => s.peek_poke_other v h⟩

/-! ### The canonical form of the memories -/

theorem State.OnlySlots.memoriesWf {s t : State} (h : s.OnlySlots t) (w : s.memoriesWf) : t.memoriesWf := by
  obtain ⟨h1, h2, h3⟩ := h
  refine ⟨by rw [h1]; exact w.1, fun d => ⟨by rw [h2 d]; exact (w.2 d).1, by rw [h2 d]; exact (w.2 d).2.1, fun c => ?_⟩⟩
  rw [h3 d c]; exact (w.2 d).2.2 c

theorem State.memoriesWf_poke {s : State} (l : Loc) (n v : Nat) (w : s.memoriesWf) : (s.poke l n v).memoriesWf := by
  have key : ∀ (m : Mem) (u a : Nat), m.wf = true → ((m.writeNat a n v).clean u a n).wf = true := fun m u a h =>
    Mem.wf_clean u a n (Mem.wf_writeNat n a v h)
  cases l with
  | const o => exact w
  | host a => exact ⟨key _ _ _ w.1, w.2⟩
  | hbm d o =>
    refine ⟨w.1, fun e => ?_⟩
    by_cases h : e = d
    · subst h; simpa [State.poke, State.modMem, State.core, Die.core] using ⟨key _ unitHbm o (w.2 e).1, (w.2 e).2⟩
    · simpa [State.poke, State.modMem, State.core, State.die_modDie_other s _ h] using w.2 e
  | sync d o =>
    refine ⟨w.1, fun e => ?_⟩
    by_cases h : e = d
    · subst h; simpa [State.poke, State.modMem, State.core, Die.core] using ⟨(w.2 e).1, key _ unitSram o (w.2 e).2.1, (w.2 e).2.2⟩
    · simpa [State.poke, State.modMem, State.core, State.die_modDie_other s _ h] using w.2 e
  | cistern d c o =>
    refine ⟨w.1, fun e => ?_⟩
    have hd : ((s.poke (.cistern d c o) n v).die e).hbm = (s.die e).hbm ∧ ((s.poke (.cistern d c o) n v).die e).sync = (s.die e).sync := by
      by_cases h : e = d
      · subst h; simp [State.poke, State.modMem, State.modCore, State.setCore]
      · simp [State.poke, State.modMem, State.modCore, State.setCore, State.die_modDie_other s _ h]
    refine ⟨by rw [hd.1]; exact (w.2 e).1, by rw [hd.2]; exact (w.2 e).2.1, fun b => ?_⟩
    by_cases h : e = d ∧ b = c
    · obtain ⟨rfl, rfl⟩ := h
      simpa [State.poke, State.modMem] using key _ unitSram o ((w.2 e).2.2 b)
    · simpa [State.poke, State.modMem, State.core_modCore_other s _ (by omega : e ≠ d ∨ b ≠ c)] using (w.2 e).2.2 b

/-! ### Taking a trap (R149) -/

/-- A trap that is no double trap, and reports no poison, changes its slot as R149 lays down and nothing else. -/
theorem State.trap_taken (s : State) (t : Trap) (h : s.me.inh = false) (hp : ¬(t.cause = 0x09 ∧ t.info = 0)) (hs : s.cur.slot < 4) :
    s.OnlyMe (s.trap t) ∧ (s.trap t).me = s.me.trapped t s.here.trapVec s.clk := by
  have e : s.trap t = s.upMe fun x => x.trapped t s.here.trapVec s.clk := by
    have hr : s.poisonRecord t = s := if_neg hp
    simp [State.trap, hr, h]
  rw [e]
  exact ⟨s.onlyMe_upMe _, State.me_upMe s _ hs⟩

end Sys2Proof.Machine
end

