-- ==== Sys2Proof/Tests/Slice0.lean ====
section
/-! SUPPORT. Tests: ill-formed terms that WellFormed refuses, words written out from the spec's encodings, single steps on
small machines, and states that meet the hypotheses of the statements. -/

set_option Elab.async false

namespace Sys2Proof.Tests
open Sys2Proof Sys2Proof.Machine

/-! ### Small machines -/

/-- Registers x that are not 0. -/
def regs (l : List (Nat × Word)) : Vector Word 64 := l.foldl (fun v e => v.setIfInBounds e.1 e.2) (Vector.replicate 64 0)

/-- One die with the cores given. -/
def die (ks : List (Nat × Core)) (x : Die := {}) : Die := { x with cores := { entries := ks } }

/-- A machine of one core, core 0 of die 0, with all units of the die ready. -/
def bed (k : Core) (x : Die := {}) : State := { dies := { entries := [(0, die [(0, k)] { x with rdy := 0x3FFFFF })] } }

/-- The same with slot 0 given. -/
def one (x : Slot) (k : Core := {}) (y : Die := {}) : State := bed { k with slots := k.slots.setIfInBounds 0 x } y

/-- A resident context with the whole sync region and every grant. -/
def ctx1 : Context := { valid := true, asid := 1, shi := 16384, jobs := BitVec.allOnes 256, dlc := BitVec.allOnes 64 }

/-- A place of an address in the sync region. -/
def syncVa (o : Nat) : Word := BitVec.ofNat 64 (0xFFFF040000000000 + o)

/-- An address in the own cistern. -/
def ownVa (o : Nat) : Word := BitVec.ofNat 64 (0xFFFF000000000000 + o)

/-- What a step shows of its next state. -/
def shows (o : Out) (p : State → Bool) : Bool :=
  match o with
  | .next t => p t
  | _ => false

/-- What a search finds. -/
def finds {α : Type} (x : Ans α) (p : α → Bool) : Bool :=
  match x with
  | .ok a => p a
  | _ => false

/-- What a decoder answers. -/
def reads (x : Except Reject Instr) (i : Instr) : Bool :=
  match x with
  | .ok j => i == j
  | .error _ => false

/-! ### Ill-formed instructions (R69, R72–R78, R107, R194) -/

theorem wf_zeroWord : (Instr.add 0 0 0 false).defect = some .zeroWord := by decide
theorem wf_constantIndex : (Instr.xor 1 2 24 true).defect = some .constantIndex := by decide
theorem wf_sourceWidth : (Instr.sext 1 2 3).defect = some .sourceWidth := by decide
theorem wf_loopDistance : (Instr.loop 4 0).defect = some .loopDistance := by decide
theorem wf_emptyMask : (Instr.fencec 0).defect = some .emptyMask := by decide
theorem wf_registerNumber : (Instr.csrrd 1 0x004).defect = some .registerNumber := by decide
theorem wf_queryRange : (Instr.thid 1 4).defect = some .queryRange := by decide
theorem wf_unreadField : (Instr.join 1 2 1).defect = some .unreadField := by decide
theorem wf_templateLimit : (Instr.mstr 0 9 0 1 0 3 1 0 0 32 0 32).defect = some .templateLimit := by decide

/-! ### States that meet the hypotheses: scalar words and control -/

def regBed : State := one { st := .active, x := regs [(1, 8), (2, 2), (3, 0x100000000), (4, 0xFFFFFFFF)] }

theorem meets_AluRegisterResults : regBed.cur.slot < 4 ∧ (2 : BitVec 3).toNat < 3 := by decide
theorem meets_ImmediateResults : regBed.cur.slot < 4 := by decide
theorem meets_BranchEffects : regBed.cur.slot < 4 ∧ (regBed.rx 1).toNat % 4 = 0 ∧ (regBed.rx 2).toNat % 4 ≠ 0 := by decide

/-- A slot at the ENDL of its loops. -/
def loopBed (n : Nat) : State :=
  one { st := .active, pc := ownVa 0x40, x := regs [(3, 0x100000000), (4, 0xFFFFFFFF)], lsDepth := n,
        lsEnd := Vector.replicate 6 (ownVa 0x40), lsIdx := Vector.replicate 6 0x300000001 }

theorem meets_HardwareLoops :
    (loopBed 0).cur.slot < 4 ∧ ((loopBed 0).rx 3).toNat > 0xFFFFFFFF ∧ ((loopBed 0).rx 0).toNat = 0 ∧
    0 < ((loopBed 0).rx 4).toNat ∧ ((loopBed 0).rx 4).toNat ≤ 0xFFFFFFFF ∧ 6 ≤ (loopBed 6).me.lsDepth ∧ (loopBed 5).me.lsDepth < 6 ∧
    (loopBed 0).me.lsDepth = 0 ∧ (loopBed 1).me.lsDepth = 0 + 1 ∧ vget (loopBed 1).me.lsEnd 0 0 = (loopBed 1).me.pc ∧
    (loopBed 1).me.stopAsked = false ∧ (5 : BitVec 10).toNat ≤ 5 ∧ 5 < (6 : BitVec 10).toNat := by decide

def memBed : State :=
  one { st := .active, x := regs [(1, ownVa 0xFFFF8), (2, syncVa 0x400000), (3, ownVa 0xFFFF9), (4, 0x5566778811223344)] } { ctx := ctx1 }

theorem meets_OwnCisternLoads :
    memBed.cur.slot < 4 ∧ (memBed.rx 1).toNat / 2 ^ 40 = 0xFFFF00 ∧ (memBed.rx 1).toNat % 2 ^ 40 < 2 ^ 20 ∧
    (memBed.rx 1).toNat % 8 = 0 ∧ memBed.here.held 0xFFFF8 8 false = false ∧ memBed.me.dbgp = false ∧
    memBed.here.cistern.poisoned 8 0xFFFF8 8 = false ∧ memBed.here.pendingBytes 0xFFFF8 (0xFFFF8 + 8) = false ∧
    memBed.here.lateAt 0xFFFF8 (0xFFFF8 + 8) = none ∧ (one { dbgp := true }).me.dbgp = true ∧
    (one { dbgp := true }).here.pendingWord 0xFFFF8 (0xFFFF8 + 8) = none := by decide
theorem meets_OtherLoadsPend :
    memBed.cur.slot < 4 ∧ (memBed.rx 2).toNat / 2 ^ 40 ≠ 0xFFFF00 ∧ memBed.syncWaits (.sync 0 0x400000) = false ∧
    memBed.classWaits 15 = false ∧ memBed.myDie.strokeRuns = false ∧ memBed.bad (.sync 0 0x400000) 8 = false ∧
    (one {} {} { sync := { poison := [0x400000 / 8] } }).bad (.sync 0 0x400000) 8 = true ∧ finds (memBed.operand (memBed.rx 2) 8 8 rightsR) (· == .loc (.sync 0 0x400000)) = true := by decide

/-- An answered result of number 7. -/
def answered (d : Dest) (v : List Word) : Pend :=
  { id := 7, dest := d, sync := false, vq := false, acquire := false, answered := true, vals := v, data := 0, bytes := 0, late := none }

theorem meets_ScalarLoadLands :
    let s := { one { st := .active, pend := [answered (.x 63) [5]] } with cur := { id := 7 } }
    s.cur.slot < 4 ∧ 63 < 64 ∧ (s.findPend s.cur.die s.cur.core s.cur.slot s.cur.id).map (fun p => (p.answered, p.dest, p.vals, p.late)) =
      some (true, .x 63, [5], none) := by decide
theorem meets_ScalarLoadLands_late :
    let late : LateTrap := { cause := 0x09, pc := 0, val := 0, info := 0 }
    let s := { one { st := .active, pend := [{ answered (.x 0) [] with late := some late }] } with cur := { id := 7 } }
    (s.findPend s.cur.die s.cur.core s.cur.slot s.cur.id).map (fun p => (p.answered, p.dest, p.vals, p.late)) =
      some (true, .x 0, [], some late) := by decide
theorem meets_ScalarStores :
    memBed.cur.slot < 4 ∧ memBed.syncWaits (.cistern 0 0 0xFFFF8) = false ∧ memBed.bad (.cistern 0 0 0xFFFF8) 8 = false ∧
    memBed.here.held 0xFFFF8 8 true = false ∧ memBed.here.pendingBytes 0xFFFF8 (0xFFFF8 + 8) = false ∧
    memBed.here.lateAt 0xFFFF8 (0xFFFF8 + 8) = none ∧ (memBed.rx 1).toNat / 2 ^ 40 = 0xFFFF00 ∧ (memBed.rx 2).toNat / 2 ^ 40 ≠ 0xFFFF00 ∧
    memBed.classWaits 0 = false ∧ memBed.syncWaits (.sync 0 0x400000) = false ∧ memBed.bad (.sync 0 0x400000) 1 = false ∧
    finds (memBed.operand (memBed.rx 2) 1 1 rightsW) (· == .loc (.sync 0 0x400000)) = true ∧ finds (memBed.operand (memBed.rx 1) 8 8 rightsW) (· == .loc (.cistern 0 0 0xFFFF8)) = true := by decide
theorem meets_MisalignedAccessTraps : memBed.cur.slot < 4 ∧ (memBed.rx 3).toNat % 8 ≠ 0 ∧ (memBed.rx 3).toNat % 2 ≠ 0 := by decide

/-! ### Traps and control registers -/

theorem meets_TrapEntry : regBed.cur.slot < 4 ∧ regBed.me.inh = false := by decide
theorem meets_DoubleTraps :
    let s := one { st := .active, inh := true } {} { fltLog := 6, fltTail := 63 }
    s.cur.slot < 4 ∧ s.me.inh = true ∧ 6 ≤ s.myDie.fltLog.toNat ∧ s.myDie.fltLog.toNat ≤ 20 ∧
    (s.myDie.fltTail - s.myDie.fltHead).toNat < 2 ^ s.myDie.fltLog.toNat := by decide
theorem meets_PrivilegeTraps : regBed.me.priv = false := by decide
theorem meets_EretReturns :
    let s := fun (n pc : Nat) => one { st := .active, priv := true, inh := true, lsDepth := n, trapDepth := 1, trapPc := ownVa pc }
    regBed.me.priv = false ∧ (s 1 0).cur.slot < 4 ∧ (s 1 0).me.priv = true ∧ (s 2 0).me.lsDepth ≠ (s 2 0).me.trapDepth.toNat ∧
    (s 1 2).me.lsDepth = (s 1 2).me.trapDepth.toNat ∧ (s 1 2).me.trapPc.toNat % 4 ≠ 0 ∧ (s 1 4).me.trapPc.toNat % 4 = 0 := by decide
theorem meets_ControlRegisterReads : regBed.cur.slot < 4 := by decide
theorem meets_ControlRegisterWrites :
    let s := one { st := .active, priv := true }
    s.cur.slot < 4 ∧ s.me.priv = true ∧ s.readReg 0 0 0 0x037 = some 0 ∧ s.readReg 0 0 0 0x302 = some 200 := by decide

/-- The subject of a register write. -/
def writing (v : Word) (n : Nat) : State := { one { st := .active } with cur := { val := v, id := n } }

theorem meets_CheckedRegisterWrites :
    (writing 0 0).cur.slot < 4 ∧ (writing (4 + 252 * 512) 0).partOk { regg := 4, scrg := 252, accg := 0 } = true ∧
    vwOk 0 ((32 + 64) * 32) = true ∧ vwOk 0x20000BFF ((32 + 64) * 32) = true ∧ vwOk 0x20000C00 ((32 + 64) * 32) = false ∧
    ((6 : Word).toNat % 8 ≤ 6) ∧ ((7 : Word).toNat % 8 = 7) ∧ (0xA001 : Word).toNat / 2 ^ 13 % 8 = 5 ∧
    (0xA001 : Word).toNat % 2 ^ 12 ≠ 0 ∧ (0xA000 : Word).toNat % 2 ^ 12 = 0 ∧ 6 ≤ (0xC000 : Word).toNat / 2 ^ 13 % 8 ∧
    0x1000 ≤ (0x400000 : Word).toNat / 2 ^ 10 % 2 ^ 20 ∧ (0x3FFC00 : Word).toNat / 2 ^ 10 % 2 ^ 20 < 0x1000 := by decide
theorem meets_DieRegisterWrites :
    let s := fun (n : BitVec 2) => { one {} {} { links := (Vector.replicate 6 {}).setIfInBounds 5 { st := n } } with cur := { id := 5 } }
    (s 2).cur.id < 6 ∧ (vget (s 2).myDie.links 5 {}).st = 2 ∧ (vget (s 2).myDie.links 5 {}).retrain = none ∧
    (vget (s 1).myDie.links 5 {}).st ≠ 2 ∧ 0x1FF < 0x200 := by decide

/-! ### States that meet the hypotheses: threads and the sync engine -/

/-- A fence finds nothing: a check of State.fenceClear. -/
def fenceClearB (s : State) (f : FenceSet) : Bool :=
  (s.here.comb.all fun e => !f.entry e) && (s.here.awaits.all fun a => !a.of s.cur.slot || !f.request a) &&
  (s.me.lands.all fun l => !f.store l) && (s.me.pend.all fun p => !f.result p) &&
  (s.here.arrivals.all fun a => a.slot != s.cur.slot || !f.arrival a) && (s.here.errWindow f.window == none)

theorem fenceClear_of (s : State) (f : FenceSet) (h : fenceClearB s f = true) : s.fenceClear f := by
  simp only [fenceClearB, Bool.and_eq_true, List.all_eq_true, Bool.or_eq_true, Bool.not_eq_true', beq_iff_eq, bne_iff_ne] at h
  obtain ⟨⟨⟨⟨⟨h1, h2⟩, h3⟩, h4⟩, h5⟩, h6⟩ := h
  exact ⟨h1, fun a ha c => (h2 a ha).resolve_left (by simp only [c]; decide), h3, h4, fun a ha c => (h5 a ha).resolve_left (· c), h6⟩

/-- A sync operation can leave: a check of State.syncClear. -/
theorem syncClear_of (s : State) (l : Loc) (g : BitVec 5) (h : ((s.die (s.homeOf l s.cur.die)).rdy.getLsbD 19 &&
    decide (s.here.syncInFlight < 32) && !s.syncAhead (s.homeOf l s.cur.die) && !s.scopeBad g.toNat && fenceClearB s (s.allSet g.toNat)) = true) :
    s.syncClear l (some g) ∧ s.syncClear l none := by
  simp only [Bool.and_eq_true, decide_eq_true_eq, Bool.not_eq_true'] at h
  obtain ⟨⟨⟨⟨h1, h2⟩, h5⟩, h3⟩, h4⟩ := h
  refine ⟨⟨h1, h2, h5, fun n e => ?_⟩, ⟨h1, h2, h5, fun n e => by cases e⟩⟩
  cases e
  exact ⟨h3, fenceClear_of s _ h4⟩

/-- A machine whose slot has registers and the grants of a context, and sync memory given. -/
def syncBed (l : List (Nat × Word)) (m : List (Nat × Byte)) (x : Slot := {}) : State :=
  one { x with st := .active, x := regs l } { ctx := ctx1 } { sync := { cells := m } }

theorem meets_YieldingWords :
    let s := syncBed [(1, syncVa 0x400000), (2, 8), (3, syncVa 0x400008), (4, syncVa 0x3FFFFFF0)] [(0x400008, 1)]
    let w := fun (x : Slot) => one x { ctx := ctx1 } { sync := { cells := [(0x400008, 1)] } }
    s.cur.slot < 4 ∧ s.rx 0 = 0 ∧ s.rx 2 ≠ 0 ∧ (w { st := .blocked, wait := .idle 0 }).me.wait = .idle 0 ∧ 0 ≤ s.clk ∧
    s.granted 0 0 0x400000 = true ∧ s.peek (.sync 0 0x400008) 1 % 2 = 1 ∧ s.peek (.sync 0 0x3FFFFFF8) 1 % 2 ≠ 1 ∧
    s.rx 4 = BitVec.ofNat 64 (0xFFFF040000000000 + 0x3FFFFFF0) ∧ (w { st := .parked, wait := .park 0x400000 }).me.st = .parked ∧
    (s.rx 2).toNat / 2 ^ 40 ≠ 0xFFFF04 ∧ (s.rx 3).toNat % 16 ≠ 0 ∧ (w { st := .blocked, wait := .word }).me.wait = .word := by decide +kernel
theorem meets_SlotSwitching :
    let s := bed { slots := #v[{}, {}, { st := .ready }, {}], last := 1 }
    let k := s.here
    k.last < 4 ∧ (∀ j, j < 4 → (k.slot j).st ≠ .active) ∧ 0 < 4 ∧ (k.slot ((k.last + 1 + 0) % 4)).st = .ready ∧
    (k.slot ((k.last + 1 + 0) % 4)).stopped = false ∧ (k.last + 1 + 0) % 4 ≠ k.last ∧
    (let k2 := (bed { slots := #v[{}, {}, { st := .ready }, {}], last := 2 }).here
     (∀ j, j < 3 → (k2.slot ((k2.last + 1 + j) % 4)).st ≠ .ready) ∧ (k2.slot ((k2.last + 1 + 3) % 4)).st = .ready ∧
     (k2.last + 1 + 3) % 4 = k2.last) := by decide +kernel
theorem meets_ThreadEnds :
    let s := one { st := .active, pend := [answered (.x 1) [0]] }
    s.cur.slot < 4 ∧ s.me.lrec = [] ∧ s.me.pend ≠ [] ∧ regBed.me.lrec = [] ∧ regBed.me.lands = [] ∧ regBed.me.pend = [] ∧
    (one { st := .blocked, wait := .exit }).me.wait = .exit ∧
    (let l : Landing := { id := 0, due := 12, kind := .row, unit := 0, row := 6143, data := 5, bytes := BitVec.allOnes 128, cells := [], sw := 0,
                          fromRec := true, arrival := none }
     (one { lrec := [l] }).me.lrec = [l] ∧ l.kind = .row ∧ l.due ≤ 12) := by decide +kernel

/-- A machine with group 7 of the members given. -/
def groupBed (ms : List (Nat × Nat)) : State :=
  one { st := .active, x := regs [(1, 7)] } {} { groups := { entries := [(7, { members := ms })] } }

theorem meets_Groups :
    let s := groupBed [(0, 1), (2, 6)]
    s.cur.slot < 4 ∧ s.myDie.groupsOf 1 < 8 ∧ s.myDie.groups.entries.length < 4095 ∧ s.myDie.groups.find (s.rx 0).toNat = none ∧
    s.myDie.groups.find (s.rx 1).toNat = some { members := [(0, 1), (2, 6)] } ∧ (∃ m ∈ [(0, 1), (2, 6)], m.2 = 1) ∧
    (∀ m ∈ [(1, 5)], m.2 ≠ 1) ∧ ([(0, 1), (2, 6)].filter fun m => m.2 != 1) ≠ [] ∧ ([(0, 1)].filter fun m => m.2 != 1) = [] ∧
    ([(0, 1), (2, 6)].find? fun m => m.2 == 1) = some (0, 1) := by decide +kernel
theorem meets_Groups_full :
    let s := one { st := .active, x := regs [(1, 9)] } {}
      { groups := { entries := [1, 2, 3, 4, 5, 6, 7, 8].map (fun g => (g, { members := [(0, 1)] })) ++ [(9, { members := [(0, 5)] })] } }
    8 ≤ s.myDie.groupsOf 1 ∧ s.myDie.groups.find (s.rx 1).toNat = some { members := [(0, 5)] } := by decide +kernel
theorem meets_ThreadInfoAndTlb : let s := one { st := .active, priv := true }; s.cur.slot < 4 ∧ s.me.priv = true := by decide +kernel

/-- A machine whose slot reads 64 bytes of its cistern at 0x1000. -/
def readBed (cells : List (Nat × Byte)) (ks : List (Nat × Core)) : State :=
  { dies := { entries := [(0, die ((0, { slots := #v[{ st := .active, priv := true, x := regs [(1, ownVa 0x1000)] }, {}, {}, {}]
                                         ctx := ctx1, cistern := { cells := cells } }) :: ks) { rdy := 0x3FFFFF })] } }

theorem meets_SpawnStartsThread :
    let s := readBed [(0x1000, 64)] []
    let s2 := readBed [(0x1000, 2)] []
    s.cur.slot < 4 ∧ s.me.st = .active ∧ finds (s.blockRead (s.rx 1) 64 64) (fun v => v < 2 ^ 512 && v % 4 == 0) = true ∧
    finds (s2.blockRead (s2.rx 1) 64 64) (fun v => v % 4 != 0) = true ∧
    s.myDie.pick s.myDie.spawnPtr (s.spawnable true) = some 0 ∧
    (readBed [] []).myDie.pick 0 (fun _ => false) = none := by decide +kernel
theorem meets_SwitchStarts :
    let s := fun (sw : Option Switch) => readBed [(0x1000, 4)] [(5, { switch := sw })]
    let v := fun (c : Byte) => readBed [(0x1000, c), (0x1002, 5)] [(5, { switch := some { op := 4, rst := false, cph := 0, save := 0, inp := 0, stat := 0, start := 0 } })]
    (s none).cur.slot < 4 ∧ (s none).me.priv = true ∧ finds ((v 4).blockRead ((v 4).rx 1) 64 64) (fun d => imageF d 2 2 == 5) = true ∧
    ((v 4).core 0 5).switch.isSome ∧ ((s none).core 0 0).switch = none ∧
    finds ((s none).blockRead ((s none).rx 1) 64 64) (fun d => switchValid d && imageF d 2 2 == 0 && (s none).saveError 0 0 d == none) = true ∧
    finds ((v 5).blockRead ((v 5).rx 1) 64 64) (fun d => !switchValid d) = true := by decide +kernel

/-- Fifteen words of a full future at offset 0x400010 and an empty one at 0x400020. -/
def futureBed : State :=
  syncBed [(1, syncVa 0x400000), (2, 5), (3, syncVa 0x400010), (4, syncVa 0x400020), (5, ownVa 0x1F80), (6, syncVa 0x400080),
    (7, syncVa 0x3FFFFFF8), (8, syncVa 0x3FFFF8), (9, syncVa 0x3FFFFFF0)] [(0x400010, 9), (0x400018, 1)]

theorem meets_Atomics :
    let s := futureBed
    (s.cur.slot < 4 ∧ finds (s.syncPlace (s.rx 7) 8 8 .word) (· == (.sync 0 0x3FFFFFF8, none)) = true ∧ s.bad (.sync 0 0x3FFFFFF8) 8 = false ∧
      finds (s.syncPlace (s.rx 1) 4 4 .word) (· == (.sync 0 0x400000, none)) = true ∧
      finds (s.syncPlace (s.rx 6) 128 128 .word) (· == (.sync 0 0x400080, none)) = true ∧ s.here.held 0x1F80 128 false = false ∧
      s.rx 5 = BitVec.ofNat 64 (0xFFFF000000000000 + 0x1F80) ∧ s.me.dbgp = false ∧ s.here.cistern.poisoned 8 0x1F80 128 = false ∧
      s.rx 8 = BitVec.ofNat 64 (0xFFFF040000000000 + 0x3FFFF8) ∧ (s.rx 2).toNat % 8 ≠ 0 ∧
      (one {} {} { sync := { poison := [0x400000 / 8] } }).bad (.sync 0 0x400000) 8 = true ∧
      s.here.pendingBytes 0x1F80 (0x1F80 + 128) = false ∧ s.here.lateAt 0x1F80 (0x1F80 + 128) = none ∧ s.bad (.sync 0 0x400000) 4 = false ∧
      s.bad (.sync 0 0x400080) 128 = false) ∧
    s.syncClear (.sync 0 0x3FFFFFF8) (some 0) := ⟨by decide +kernel, (syncClear_of _ _ 0 (by decide +kernel)).1⟩
theorem meets_FuturesAndAcquires :
    let s := futureBed
    (s.cur.slot < 4 ∧ s.me.pend = [] ∧ s.rx 3 = BitVec.ofNat 64 (0xFFFF040000000000 + 0x400010) ∧ s.granted 0 0 0x400010 = true ∧
      s.bad (.sync 0 0x400000) 64 = false ∧ s.classWaits 0 = false ∧ s.myDie.waiters = [] ∧ s.peek (.sync 0 0x400018) 1 % 2 = 1 ∧
      s.rx 9 = BitVec.ofNat 64 (0xFFFF040000000000 + 0x3FFFFFF0) ∧ s.granted 0 0 0x3FFFFFF0 = true ∧
      s.peek (.sync 0 0x3FFFFFF8) 1 % 2 ≠ 1) ∧
    s.syncClear (.sync 0 0x400010) (some 2) := ⟨by decide +kernel, (syncClear_of _ _ 2 (by decide +kernel)).1⟩

/-- A WAITA of slot 0 that waits for a change of 9 at offset o. -/
def waitBed (o : Nat) : State :=
  let r : SyncReq := { id := 7, op := .waita 1 2 3 0, die := 0, core := 0, slot := 0, asid := 1, pc := 0, loc := .sync 0 o, b := 9 }
  { one { st := .blocked, wait := .answer 7, pend := [{ answered (.x 1) [] with answered := false, sync := true }] } { ctx := ctx1 }
      { sync := { cells := [(0x400010, 9)] }, waiters := [{ req := r }] } with cur := { id := 7 } }

theorem meets_AddressWaits :
    let s := futureBed
    (s.cur.slot < 4 ∧ s.rx 7 = BitVec.ofNat 64 (0xFFFF040000000000 + 0x3FFFFFF8) ∧ s.granted 0 0 0x3FFFFFF8 = true ∧ s.me.pend = [] ∧
      s.bad (.sync 0 0x3FFFFFF8) 8 = false ∧ BitVec.ofNat 64 (s.peek (.sync 0 0x400010) 8) ≠ s.rx 2 ∧
      BitVec.ofNat 64 (s.peek (.sync 0 0x3FFFFFF8) 8) = s.rx 0) ∧
    s.syncClear (.sync 0 0x3FFFFFF8) (some 2) := ⟨by decide +kernel, (syncClear_of _ _ 2 (by decide +kernel)).1⟩
theorem meets_AddressWaits_end :
    ((waitBed 0x400010).waitaOf 7).map (fun e => (e.1, e.2.loc, e.2.win, e.2.slot)) = some (0, .sync 0 0x400010, none, 0) ∧
    (waitBed 0x400010).bad (.sync 0 0x400010) 8 = false ∧ BitVec.ofNat 64 ((waitBed 0x400010).peek (.sync 0 0x400010) 8) = 9 ∧
    BitVec.ofNat 64 ((waitBed 0x400018).peek (.sync 0 0x400018) 8) ≠ 9 := by decide +kernel

/-- Phasers at the first and the last handle; registers 1 and 2 name them. -/
def phaserBed (p : Phaser) : State :=
  (syncBed [(1, syncVa 64), (2, syncVa 0x3FFFC0), (3, 1), (4, 3), (5, 7)] []).setPhaser (.sync 0 64) p

theorem meets_PhaserWords :
    let p := { Phaser.zero with valid := true, ns := 1 }
    let s := phaserBed p
    (s.cur.slot < 4 ∧ s.me.pend = [] ∧ s.me.arrived = none ∧ s.rx 2 = BitVec.ofNat 64 (0xFFFF040000000000 + 0x3FFFC0) ∧
      s.granted 0 0 0x3FFFC0 = true ∧ s.bad (.sync 0 0x3FFFC0) 64 = false ∧ s.myDie.waiters = [] ∧
      (s.phaser (.sync 0 0x3FFFC0)).valid = false ∧ (s.rx 4).toNat < 4 ∧ s.rx 1 = BitVec.ofNat 64 (0xFFFF040000000000 + 64) ∧
      s.bad (.sync 0 64) 64 = false ∧ s.granted 0 0 64 = true ∧ s.phaser (.sync 0 64) = p ∧
      0 < (p.ns : Int) + p.nw + p.nsw + p.ds + p.dw + p.dsw ∧ (s.rx 3).toNat = 1 ∧ p.ds < 32767 ∧ 0 < (p.ns : Int) + p.ds ∧
      (p.ns : Int) + p.ds < 65535 ∧ -32768 < p.ds ∧
      p.arr = 0 ∧ p.byt = 0 ∧ p.ns + p.nsw ≤ (p.arr + 1) % 2 ^ 16 ∧ p.exp ≤ p.byt ∧
      phasePassed p.ph 0 = false ∧ phasePassed 1 0 = true) ∧
    s.syncClear (.sync 0 64) (some 2) := ⟨by decide +kernel, (syncClear_of _ _ 2 (by decide +kernel)).1⟩
theorem meets_PhaserWords_open :
    let p := { Phaser.zero with valid := true, ns := 2, ds := -1 }
    (phaserBed p).phaser (.sync 0 64) = p ∧ ¬ (p.ns + p.nsw ≤ (p.arr + 1) % 2 ^ 16) := by decide +kernel
theorem meets_EngineArrivals :
    let s := fun (p : Phaser) => { phaserBed p with cur := { id := 64, val := 8 } }
    let p := { Phaser.zero with valid := true, exp := 9 }
    (s p).myDie.rdy.getLsbD 19 = true ∧ (s p).myDie.waiters = [] ∧ (s p).cur.n = 0 ∧ (s p).phaser (.sync 0 64) = p ∧
    ¬ p.exp ≤ p.byt + 8 ∧ 8 ≤ Phaser.zero.byt + 8 ∧ Phaser.zero.valid = false ∧ (s p).bad (.sync 0 64) 64 = false ∧
    ({ s p with cur := { id := 0x3FFFC0 } } : State).bad (.sync 0 0x3FFFC0) 64 = false ∧
    ({ one {} {} { sync := { poison := [12] } } with cur := { id := 64 } } : State).bad (.sync 0 64) 64 = true := by decide +kernel
theorem meets_BarriersAndCounters :
    let s := syncBed [(1, syncVa 64), (2, 1), (3, syncVa 0x400000), (4, 0x200000003), (5, 0x3FFF), (6, 255), (7, 256), (8, 8), (9, 7),
      (10, syncVa 0x3FFE00)] [] { bar := { d := 1 } }
    let z := s.setPhaser (.sync 0 64) { Phaser.zero with valid := true }
    (s.cur.slot < 4 ∧ (s.rx 0).toNat = 0 ∧ 1 ≤ (s.rx 2).toNat ∧ s.granted 0 0 64 = true ∧ s.granted 0 0 127 = true ∧
      (z.phaser (.sync 0 64)).valid = true ∧ (z.phaser (.sync 0 64)).ph = 0 ∧ z.bad (.sync 0 64) 64 = false ∧ 8 ≤ (s.rx 8).toNat % 2 ^ 32 ∧ 0x3FFE00 + 64 * (s.rx 8).toNat ≤ 0x400000 ∧ s.me.bar.d ≠ 0 ∧
      regBed.me.bar.d = 0 ∧ (s.rx 9).toNat ≤ 7 ∧ s.bad (.sync 0 0x400000) 64 = false ∧ (s.rx 4).toNat % 2 ^ 32 < 4 ∧
      (s.rx 4).toNat < 2 ^ 48 ∧ s.peek (.sync 0 0x400034) 2 = 0 ∧ (s.rx 4).toNat / 2 ^ 32 ≠ 0 ∧ (s.rx 2).toNat / 2 ^ 32 = 0 ∧
      (s.rx 5).toNat < 2 ^ 14 ∧ (s.rx 6).toNat < 256 ∧ 256 ≤ (s.rx 7).toNat) ∧
    s.syncClear (.sync 0 0) (some 0) ∧ s.syncClear (.sync 0 0) none :=
  ⟨by decide +kernel, syncClear_of _ _ 0 (by decide +kernel)⟩
theorem meets_BarriersAndCounters_snapshot :
    let s := (syncBed [(2, 0x2000), (6, 255)] []).modCore 0 0 fun k =>
      { k with tlb := [{ asid := 1, va := 0, size := 65536, pa := 0, r := true, w := true, x := true, priv := false }] }
    ((s.rx 6).toNat < 256 ∧ s.cur.slot < 4 ∧
      (match s.snapPlace (s.rx 2) with
        | .ok y => y == ([.hbm 0 0x2000, .hbm 0 0x2040, .hbm 0 0x2080, .hbm 0 0x20C0], none)
        | _ => false) = true ∧
      ∀ k, k < 4 → s.bad (.hbm 0 (0x2000 + 64 * k)) 64 = false) ∧
    s.syncClear (.sync 0 0) (some 0) :=
  ⟨by decide +kernel, (syncClear_of _ _ 0 (by decide +kernel)).1⟩


/-! ### States that meet the hypotheses: fences, windows and the fabric -/

/-- The map of a torus of 1 × 1 × 2 dies, GEN 7, at physical address 0. -/
def mapCells : List (Nat × Byte) := [(1, 0x21), (2, 0x08), (4, 7), (10, 2)]

/-- Window 63 goes one hop Z+ to core 0 of die 1; its limit is 64 KiB. -/
def win1 : Window := { routes := #v[0x200000000000C081, 0, 0, 0], ctrl := 0x87E0000000400, base := 0x1000, limit := 0x10000, gang := true }

def winVa (o : Nat) : Word := BitVec.ofNat 64 (0xFFFF023F00000000 + o)

/-- A machine of two dies whose core 0 has window 63 and the words of a descriptor at 0x1000 of its cistern. -/
def winBed (w : Window) (k : Core := {}) (x : Slot := {}) (f : Link := {}) : State :=
  let l := regs [(1, ownVa 0x1000), (2, 0x200000000000C081), (3, 1024), (4, 24), (5, 23), (6, winVa 0xFFF8), (7, 0x1FFFF), (8, winVa 0xFFFF)]
  { dies := { entries := [
      (0, die [(0, { k with slots := #v[{ x with st := .active, x := l }, {}, {}, {}], wins := k.wins.setIfInBounds 63 w, ctx := ctx1 })]
            { rdy := 0x3FFFFF, hbm := { cells := mapCells }, links := (Vector.replicate 6 {}).setIfInBounds 4 f }),
      (1, die [(0, { ctx := ctx1 })] { rdy := 0x3FFFFF })] } }

/-- A request of slot 0 through window 63. -/
def pk (k : PktKind) : Packet :=
  { id := 3, kind := k, die := 0, core := 0, slot := 1, asid := 1, win := 63, cls := 15, seq := 0, route := 0x200000000000C081, ridx := 0
    at_ := 0, target := .cistern 1 0 0x21000 }

/-- An entry of the combining buffer. -/
def comb1 : CombEntry := { id := 5, win := 63, cls := 15, line := 0, data := 0, bytes := 0, slots := [0], opened := 0, pc := 0 }

theorem meets_WindowAccesses :
    let s := winBed { win1 with ctrl := 0x80000000400 ||| win1.ctrl }
    s.cur.slot < 4 ∧ finds (s.operand (s.rx 6 + (1 : BitVec 8).signExtend 64 * 4) 4 4 rightsR) (· == .win 63 0xFFFC) = true ∧
    s.winOk (s.here.win 63) 0xFFFC 4 true false false = true ∧ s.winOk (s.here.win 63) 0xFFFF 1 true false true = true ∧
    finds (s.operand (s.rx 8 + (0 : BitVec 8).signExtend 64 * 1) 1 1 rightsW) (· == .win 63 0xFFFF) = true ∧
    s.here.unitsFor 63 15 0xFFFF 1 ≤ (s.here.win 63).free ∧ s.mergeWaits 63 15 (0xFFFF / 64) = false := by decide +kernel
theorem meets_SwitchStarts_error :
    let s := readBed [(0x1000, 1), (0x1002, 5)] [(5, { ctx := ctx1, wins := (Vector.replicate 64 {}).setIfInBounds 63 { win1 with err := true } })]
    (s.core 0 5).switch = none ∧
    finds (s.blockRead (s.rx 1) 64 64) (fun d => switchValid d && imageF d 2 2 == 5 && s.saveError 0 5 d == some 63) = true := by decide +kernel
theorem meets_Fences :
    let s := winBed win1
    let r := winBed win1 { awaits := [{ pkt := pk .posted, until_ := 9 }] }
    let b := winBed win1 {} { lands := [{ id := 0, due := 0, kind := .store, unit := 0, row := 0, data := 0, bytes := 0, cells := [], sw := 0,
                                          fromRec := false, cls := 15, arrival := none }] }
    (s.cur.slot < 4 ∧ s.here.comb = [] ∧ s.here.awaits = [] ∧ s.me.lands = [] ∧ s.me.pend = [] ∧
      (∀ w, w < 64 → (s.here.win w).valid = true → (s.here.win w).err = false) ∧ s.scopeBad 4 = false ∧
      s.rx 6 = BitVec.ofNat 64 (0xFFFF020000000000 + 63 * 2 ^ 32 + 0xFFF8) ∧ 0xFFF8 % 8 = 0 ∧
      s.winOk (s.here.win 63) 0xFFF8 8 true false true = true ∧ (s.here.win 63).free ≠ 0 ∧
      (winBed win1 { sg := Vector.replicate 32 (5, 9) }).scopeBad 31 = true) ∧
    r.here.comb = [] ∧ (∃ a ∈ r.here.awaits, a.of 0 = true ∧ (0x8000 : BitVec 16).getLsbD a.pkt.cls = true) ∧
    (∃ l ∈ b.me.lands, l.kind = .store ∧ (0x8000 : BitVec 16).getLsbD l.cls = true) ∧ (1 : BitVec 5).getLsbD 0 = true ∧
    (16 : BitVec 5).getLsbD 4 = true ∧ (8 : BitVec 5).getLsbD 3 = true := by decide +kernel
theorem meets_Fences_held :
    let wrote := fun (k : Core) => k.comb.map fun e => ((e.slots.foldl (fun a j => a + 2 ^ j) 0) / 2 ^ 0 % 2 == 1, e.win, e.cls)
    let s := winBed win1 { comb := [comb1] }
    let a := winBed win1 { arrivals := [{ id := 0, slot := 0, addr := winVa 0, n := 1, cls := 15 }] }
    let r := winBed win1 { awaits := [{ pkt := { pk (.arrival 8 false) with slot := 0 }, until_ := 9 }] }
    let e := winBed { win1 with err := true }
    let f := winBed { win1 with out := 1024 }
    wrote s.here = [(true, 63, 15)] ∧ wrote (winBed win1).here = [] ∧ (winBed win1).scopeBad 4 = false ∧
    (a.here.arrivals.map fun y => (y.slot, y.cls, region y.addr == .window 63 0)) = [(0, 15, true)] ∧
    (r.here.awaits.map fun y => y.of 0) = [true] ∧ (e.here.win 63).valid = true ∧ (e.here.win 63).err = true ∧
    (∀ w, w < 63 → (e.here.win w).valid = false) ∧ (f.here.win 63).err = false ∧ (f.here.win 63).free = 0 ∧
    e.winOk (e.here.win 63) 0xFFF8 8 true false true = true ∧ 0xFFFF % 8 ≠ 0 ∧ s.winOk {} 0xFFF8 8 true false true = false := by decide +kernel
theorem meets_Fences_scope :
    let s := winBed win1
    s.scopeBad 0 = false ∧ (∀ e ∈ s.here.comb, (s.releaseSet 0).entry e = false) ∧ s.here.errWindow (s.releaseSet 0).window = none := by decide +kernel
theorem meets_Fences_release :
    let s := winBed win1
    s.fenceClear { s.releaseSet 31 with request := fun a => (s.releaseSet 31).window a.pkt.win } := fenceClear_of _ _ (by decide +kernel)

/-- The descriptor of window 63 as bytes at 0x1000, with its VALID bit or without, and route 0 as given. -/
def descCells (r : Byte) : List (Nat × Byte) :=
  [(0x1000, r), (0x1001, 0xC0), (0x1007, 0x20), (0x1021, 4), (0x1025, 0x7E), (0x1026, 8), (0x1029, 0x10), (0x1032, 1)]

theorem meets_WindowWords :
    let s := winBed win1 { cistern := { cells := descCells 0x81 } }
    let b := winBed win1 { cistern := { cells := descCells 0x82 } }
    let z := winBed {}
    s.cur.slot < 4 ∧ finds (s.blockRead (s.rx 1) 64 64) (fun v => v / 2 ^ 307 % 2 == 1 && s.winRefused v == none) = true ∧
    finds (b.blockRead (b.rx 1) 64 64) (fun v => v / 2 ^ 307 % 2 == 1 && b.winRefused v == some (0, 3 + 2 * 2 ^ 11)) = true ∧
    finds (z.blockRead (z.rx 1) 64 64) (fun v => v / 2 ^ 307 % 2 == 0) = true ∧ s.here.comb = [] ∧ (s.here.win 63).out = 0 ∧
    s.me.inh = false ∧ (s.here.win 63).valid = true ∧ (s.here.win 63).nrt < 1 ∧ 0 ≤ (s.here.win 63).nrt ∧ (z.here.win 63).valid = false ∧
    routeCheck (s.mapTorus s.cur.die s.cur.core) s.here.turn (s.rx 2) (s.pos s.cur.die) (s.here.win 63).tgt (s.here.win 63).cl = 0 ∧
    s.rx 0 = 0 ∧ s.rx 3 = 1024 ∧ 8 + 7 * (s.mapWord 0 0 1 / 2 ^ 16 % 2 ^ 16) = 22 ∧ 22 ≤ (s.rx 5).toNat ∧ (s.rx 1).toNat ≥ 22 ∧
    (s.rx 0).toNat < 22 ∧ s.bad (s.mapLoc 0 0 0) 8 = false ∧ (s.rx 7).toNat < 2 ^ 17 ∧
    routeCheck (s.mapTorus 0 0) s.here.turn (s.rx 2) (s.pos 0) #v[31, 31, 31] 3 ≠ 0 ∧
    routeCheck (s.mapTorus 0 0) s.here.turn (s.rx 2) (s.pos 0) #v[0, 0, 1] 0 = 0 ∧ (1024 : Word).toNat < 2 ^ 17 ∧
    (winBed { win1 with out := 1 }).here.comb = [] ∧ ((winBed { win1 with out := 1 }).here.win 63).out ≠ 0 ∧
    (winBed win1 { comb := [comb1] }).here.comb.map (·.win) = [63] := by decide +kernel

/-- A packet on its way, with the link Z+ of die 0 in state st and its flits. -/
def hopBed (p : Packet) (f : Link) : State :=
  { winBed win1 {} {} f with packets := { entries := [(3, p)] }, cur := { id := 3, n := 4 } }

theorem meets_PacketHops :
    let p := pk .posted
    let s := hopBed p { st := 1, flits := [{ seq := 0, pkt := p }] }
    let q := { p with seg := 1 }
    let b := { p with back := true, reason := 9 }
    (s.packets.find 3).isSome = true ∧ p.id = s.cur.id ∧ p.back = false ∧ p.route.toNat / 2 ^ (8 * p.seg + 5) % 8 = 4 ∧
    (vget (s.die p.at_).links 4 {}).st.toNat < 2 ∧ 2 ≤ (vget ((hopBed p {}).die p.at_).links 4 {}).st.toNat ∧
    q.route.toNat / 2 ^ (8 * q.seg + 5) % 8 = 6 ∧ isPush q.kind = false ∧ b.back = true ∧ b.path = [] ∧ b.reason ≠ 0 ∧ s.cur.n < 6 ∧
    (let y := { p with back := true, at_ := 0, path := [(1, 5, 0)] }
     let down := hopBed y { st := 2 }
     y.back = true ∧ y.path = [(1, 5, 0)] ∧ (if 5 % 2 = 0 then 5 + 1 else 5 - 1) = 4 ∧ y.reason = 0 ∧
       (vget (s.die y.at_).links 4 {}).st.toNat < 2 ∧ 2 ≤ (vget (down.die y.at_).links 4 {}).st.toNat) ∧
    ((vget s.myDie.links s.cur.n {}).flits.map fun f => (f.pkt.id, f.damaged)) = [(3, false)] := by decide +kernel

/-- A packet at its target. -/
def atTarget (k : PktKind) : Packet := { pk k with at_ := 1, seg := 1, target := .cistern 1 0 0xBFFC0, addr := winVa 0 }

theorem meets_RemoteAccesses :
    let p := atTarget (.load false [(0, 64, 0)])
    let w := { atTarget .posted with bytes := BitVec.allOnes 64 }
    let s := hopBed p {}
    let t := hopBed w {}
    let a := fun (p : Packet) => { winBed win1 { awaits := [{ pkt := p, until_ := 0 }] }
        { pend := [{ answered (.x 1) [] with id := p.owner, answered := false, left := 1 }] } with packets := { entries := [(3, p)] }, cur := { id := 3 } }
    s.cur.id = 3 ∧ (s.packets.find 3).isSome = true ∧ s.loadWaits p = false ∧ s.rejected p = false ∧ s.bad p.target 64 = false ∧
    ({ s with dies := { entries := [(1, die [(0, { ctx := ctx1, cistern := { poison := [0xBFFC0 / 8] } })])] } }.bad p.target 1 = true) ∧
    s.rejected { p with asid := 2 } = true ∧ s.loadWaits { p with asid := 2 } = false ∧
    (t.seqOf w.at_ w).held.length = 0 ∧ (t.seqOf w.at_ w).next = w.seq ∧ t.behindLoad w = false ∧ t.rejected w = false ∧
    t.rejected { w with asid := 2 } = true ∧ (t.core 1 0).cistern.poison = [] ∧
    (a w).awaited w = true ∧ w.win < 64 ∧ (((a w).core 0 0).win 63).err = false ∧
    (let r := { p with slot := 3, owner := 0 }
     let b := { a r with dies := { entries := [(0, die [(0, { awaits := [{ pkt := r, until_ := 0 }]
                                                              slots := #v[{}, {}, {}, { pend := [{ answered (.x 1) [] with id := 0, left := 1 }] }] })])] } }
     b.awaited r = true ∧ r.slot < 4 ∧ r.late = none ∧
       (b.findPend r.die r.core r.slot r.owner).map (fun q => (q.left, q.dest)) = some (1, .x 1)) ∧
    ((a w).here.awaits.find? (fun x => x.pkt.id == 3)).map (fun x => (x.pkt.id, decide (x.until_ ≤ (a w).clk))) = some (3, true) ∧
    w.die = (a w).cur.die ∧ w.core = (a w).cur.core := by decide +kernel
theorem meets_RemoteAccesses_gap :
    let w := { atTarget .posted with seq := 2 }
    let s := { hopBed w {} with clk := 2000000, cur := { die := 1, id := 3 } }
    let s := s.setSeq 1 w { die := 0, core := 0, win := 63, cls := 15, next := 0, held := [(w, 0)] }
    (s.heldWrite 1 3).map (fun q => (q.id, q.seq, (s.seqOf 1 q).next)) = some (3, 2, 0) ∧
    ((s.seqOf 1 w).held.any fun h => h.1.id == w.id && decide (h.2 + s.targetTimeout w ≤ s.clk)) = true ∧
    (let b := { winBed win1 { comb := [comb1] } with cur := { id := 5 } }
     (b.here.comb.find? (fun e => e.id == b.cur.id)).map (·.line) = some 0) := by decide +kernel

/-! ### States that meet the hypotheses: tasks, guards and graphs -/

/-- A resident record with its bytes given as a number. -/
def rec1 (v : Nat) (st : RecState) (asid : Nat := 1) : TaskRec := { bits := BitVec.ofNat 512 v, st := st, deps := 0, asid := asid }

/-- A machine whose slot has registers, a task, records, queues and bytes of its cistern. -/
def taskBed (x : Die) (k : Core := {}) (task : Option Nat := none) : State :=
  one { st := .active, task := task, x := regs [(1, ownVa 0x20000), (2, 1023), (3, 255), (4, 256), (5, 63), (6, 64), (7, syncVa 0x3FFFFFF0),
                                                (8, 0x800000FFFFFF), (9, ownVa 0x20040), (10, 0x1000000)] }
    { k with ctx := ctx1 } x

theorem meets_TaskWords :
    let s := fun (c : List (Nat × Byte)) => taskBed {} { cistern := { cells := c } }
    let w := taskBed { recs := { entries := [(65535, rec1 0 .prefetched)] } } { prefetch := [65535] }
    let r := taskBed { recs := { entries := [(65535, rec1 0 .running)] } } {} (some 65535)
    let q := fun (ctk : Nat) => taskBed { tokens := [5], recs := { entries := [(3, rec1 (ctk * 2 ^ 320) .queued)] }, queues := { entries := [(1023, [3])] } }
    (s []).cur.slot < 4 ∧ finds ((s []).taskRecord ((s []).rx 1)) (fun v => recordOk v && (s []).jobGranted 0 0 (v / 2 ^ 416 % 2 ^ 16)) = true ∧
    finds ((s [(0x2002D, 1)]).taskRecord ((s []).rx 1)) (fun v => !recordOk v) = true ∧
    finds ((s [(0x20035, 1)]).taskRecord ((s []).rx 1)) (fun v => !(s []).jobGranted 0 0 (v / 2 ^ 416 % 2 ^ 16)) = true ∧
    (s []).myDie.rdy.getLsbD 18 = true ∧ (s []).here.syncInFlight < 32 ∧ (s []).myDie.recs.entries.length < 65536 ∧
    r.me.task.isSome = true ∧ (s []).me.task = none ∧ (s []).here.prefetch = [] ∧ w.me.task = none ∧ w.here.prefetch = [65535] ∧
    w.myDie.recs.find 65535 = some (rec1 0 .prefetched) ∧ r.myDie.recs.find 65535 = some (rec1 0 .running) ∧
    ((s []).rx 2).toNat < 1024 ∧ (s []).jobGranted 0 0 ((s []).rx 3).toNat = true ∧ (s []).jobGranted 0 0 ((s []).rx 4).toNat = false ∧
    (q 0).nextDispatch 0 0 = some (.send 1023 3 (rec1 0 .queued) 0) ∧
    (q 5).nextDispatch 0 0 = some (.discard 3 (rec1 (5 * 2 ^ 320) .queued)) := by decide +kernel
theorem meets_TaskWords_release : let s := taskBed {}; s.fenceClear (s.releaseSet 2) := fenceClear_of _ _ (by decide +kernel)
theorem meets_TaskWords_full :
    65536 ≤ (taskBed { recs := { entries := List.replicate 65536 (0, rec1 0 .waiting) } }).myDie.recs.entries.length := by
  exact Nat.le_of_eq (List.length_replicate (n := 65536) (a := (0, rec1 0 .waiting))).symm

/-- A remote push as a packet. -/
def pushPk (asid : Nat) : Packet :=
  { pk (.sync { id := 7, op := .tkpush 1 2 3 1, die := 0, core := 0, slot := 1, asid := asid, pc := 0, loc := .sync 1 0 }) with at_ := 1, asid := asid }

theorem meets_TaskWords_remote :
    let s := hopBed (pushPk 1) {}
    (s.packets.find s.cur.id).map (·.id) = some 3 ∧ s.hostOf 1 1 = some 0 ∧ (s.die 1).rdy.getLsbD 18 = true ∧ s.hostOf 1 2 = none ∧
    (let b := { one {} { awaits := [{ pkt := pushPk 1, until_ := 9 }], slots := #v[{}, { pend := [answered (.x 1) []] }, {}, {}] } with
                packets := s.packets, cur := s.cur }
     b.awaited (pushPk 1) = true ∧ (pushPk 1).slot < 4 ∧ (pushPk 1).late = none ∧
       (b.slot 0 0 (pushPk 1).slot).pend.map (·.id) = [7]) := by decide +kernel

theorem meets_GrantsAndDeadlines :
    let s := taskBed {} { cistern := { cells := [(0x20040, 2), (0x20044, 1)] } }
    (s.cur.slot < 4 ∧ s.rx 7 = BitVec.ofNat 64 (0xFFFF040000000000 + 0x3FFFFFF0) ∧ 0x3FFFFFF0 % 16 = 0 ∧ 0x3FFFFFF0 + 16 ≤ 2 ^ 30 ∧
      s.granted 0 0 0x3FFFFFF0 = true ∧ s.bad (.sync 0 0x3FFFFFF0) 16 = false ∧ s.nodeOf 0 0 0 = none ∧
      (let y := (s.rx 8).toNat; y % 2 ^ 24 ≠ 0 ∧ y / 2 ^ 24 % 2 ^ 8 = 0 ∧ y / 2 ^ 32 % 2 ^ 16 ≠ 0 ∧ y < 2 ^ 48) ∧
      (s.rx 10).toNat / 2 ^ 24 % 2 ^ 8 ≠ 0 ∧
      s.rx 9 = BitVec.ofNat 64 (0xFFFF000000000000 + 0x20040) ∧ s.me.dbgp = false ∧ s.here.sb = [] ∧ s.here.cistern.poison = [] ∧
      s.here.syncInFlight < 32 ∧ s.here.part.regg * 4096 ≤ 0x20000 ∧ s.peek (.cistern 0 0 0x20040) 4 = 2 ∧ s.peek (.cistern 0 0 0x20044) 4 = 1 ∧
      0x20040 + 64 + 8 * 2 ≤ (s.here.part.regg + s.here.part.scrg) * 4096 ∧ s.peek (.cistern 0 0 0x20000) 4 ≤ s.peek (.cistern 0 0 0x20004) 4 ∧
      s.myDie.rdy.getLsbD 18 = true ∧ s.classGranted 0 0 (s.rx 5).toNat = true ∧ s.classGranted 0 0 (s.rx 6).toNat = false) ∧
    s.syncClear (.sync 0 0x3FFFFFF0) (some 2) := ⟨by decide +kernel, (syncClear_of _ _ 2 (by decide +kernel)).1⟩
theorem meets_GrantsAndDeadlines_held (a n : Nat) (w : Bool) : (taskBed {}).here.held a n w = false := rfl
theorem meets_GrantsAndDeadlines_expiry :
    let s := { taskBed { deadlines := { entries := [(63, { armed := true, at_ := 9 })] } } with clk := 9, cur := { id := 63 } }
    (s.myDie.deadlines.get {} s.cur.id).armed = true ∧ (s.myDie.deadlines.get {} s.cur.id).at_ ≤ s.clk := by decide +kernel

/-- A stroke of graph 257 in a mode. -/
def stroke1 (m : StrokeMode) (gstop : Bool := false) : Stroke := { token := 5, mode := m, key := 0, desc := [], origin := 0, gstop := gstop }

/-- Graph 257, without a node, with the stroke and the pending stroke given. -/
def graph1 (r : Option Stroke) (p : Option (List (Nat × Word) × Nat × Nat) := none) : Graph :=
  { asid := 1, nparam := 0, phbase := 0, job := 0, nodes := [], phasers := [], shape := [], run := r, pending := p }

/-- A machine whose slot runs node 0 of graph 257, with a player that holds guards. -/
def guardBed (m : StrokeMode) (g : List TraceEntry) : State :=
  one { st := .active, task := some 3, x := regs [(1, 127), (2, 128), (3, 5)] } { ctx := ctx1, player := { part := some { core := 0, entries := g } } }
    { recs := { entries := [(3, { rec1 (5 * 2 ^ 320) .running with node := some (257, 0) })] }, tokens := [5]
      graphs := { entries := [(257, graph1 (some (stroke1 m)))] } }

theorem meets_GuardsAndTokens :
    let s := guardBed .replay [{ kind := .guard, aux := 0, tag := 15, b := 127 }]
    s.cur.slot < 4 ∧ s.here.syncInFlight < 32 ∧ (s.rx 1).toNat < 2 ^ 7 ∧ 2 ^ 7 ≤ (s.rx 2).toNat ∧ (taskBed {}).nodeOf 0 0 0 = none ∧
    (s.nodeOf 0 0 0).map (fun e => (e.1, e.2.1, e.2.2.token, e.2.2.mode == .replay)) = some (257, 0, 5, true) ∧
    (s.taskOf 0 0 0).map (·.ctk) = some 5 ∧
    ((guardBed .record []).nodeOf 0 0 0).map (fun e => e.2.2.mode == .record) = some true ∧
    ((guardBed .stopping []).nodeOf 0 0 0).map (fun e => e.2.2.mode == .stopping) = some true ∧
    ((s.here.player.guardsOf 0)[s.me.guards]?).map (fun g => (g.aux, g.tag, g.b)) = some (0, 15, s.rx 1) ∧
    (((guardBed .replay []).here.player.guardsOf 0)[0]?).isNone = true ∧ (s.rx 0).toNat = 0 ∧ (s.rx 3).toNat ≠ 0 ∧
    (∀ n ∈ insertNat (s.gangOf 0 0) 0, 128 ∈ (s.die n).tokens ∨ (s.die n).tokens.length < 1024) := by decide +kernel
theorem meets_GuardsAndTokens_full :
    let s := one { x := regs [(3, 5)] } {} { tokens := List.replicate 1024 6 }
    ∃ n ∈ insertNat (s.gangOf 0 0) 0, (s.rx 3).toNat ∉ (s.die n).tokens ∧ 1024 ≤ (s.die n).tokens.length := by decide +kernel
theorem meets_GuardsAndTokens_release : let s := guardBed .replay []; s.fenceClear (s.releaseSet 3) := fenceClear_of _ _ (by decide +kernel)

/-- A write of the host to a graph register of die 0, with graph 257 given and bytes of the HBM. -/
def graphBed (g : Option Graph) (v : Word) (m : List (Nat × Byte) := []) (x : Die := {}) : State :=
  let gs : Tab Graph := { entries := (g.map fun g => (257, g)).toList }
  { one {} { ctx := ctx1 } { x with graphs := gs, hbm := { cells := m } } with cur := { n := 1, val := v, id := 257 } }

/-- The image of graph 1 with one node, at physical address 0x1000. -/
def graphCells : List (Nat × Byte) := [(0x1000, 1), (0x1001, 1), (0x1002, 1), (0x1020, 128)]

theorem meets_GraphsAndStrokes :
    let at_ := 0x0100000000001000
    let r := fun (m : StrokeMode) => graphBed (some (graph1 (some (stroke1 m)))) 5
    let none_ := graphBed none 0
    let idle := graphBed (some (graph1 none)) 0x0100000000000000
    let ended := graphBed (some (graph1 (some (stroke1 .record)))) 0
    let wait_ := graphBed (some (graph1 none (some ([], 9, 0)))) 0x0100000000000000
    let key := fun (s : State) => s.writerAsid s.writer * 256 + s.cur.val.toNat / 2 ^ 56
    none_.graph 0 (key none_) = none ∧ key idle = 257 ∧ ((wait_.graph 0 257).map fun g => g.pending.isSome && g.run.isNone) = some true ∧
    ((idle.graph 0 257).map fun g => g.pending.isNone && g.run.isNone) = some true ∧ idle.cur.val.toNat / 64 % 2 ^ 50 * 64 = 0 ∧
    (ended.stroke 0 257).isSome = true ∧ ended.strokeEnded 257 = true ∧
    ((r .replay).stroke 0 257).map (fun q => (q.token == (r .replay).cur.val.toNat, q.mode == .replay)) = some (true, true) ∧
    ((r .stopping).stroke 0 257).map (fun q => (q.mode == .stopping, q.left.isEmpty)) = some (true, true) ∧
    (idle.stroke 0 257).isNone = true ∧
    (let s := graphBed none at_ graphCells
     ((s.readLineBy s.writer 0x1000).1.map headerOk) = some true ∧
       ((s.readLinesBy s.writer 0x1000 2).1.map fun i => imageOk i 1 (s.inGang 0 (s.contextCore s.writer)) && imageF i 32 4 == 128) = some true ∧
       s.graphBusy 257 = false) ∧ ended.graphBusy 257 = true ∧
    (let s := graphBed none at_
     (s.readLineBy s.writer 0x1000).1.map headerOk = some false) ∧
    (let q : TraceSet := { asid := 1, gid := 1, key := 0, desc := [], parts := [{ core := 0, entries := [] }] }
     let s := graphBed (some (graph1 none)) at_ [] { traces := [q] }
     (s.readLinesBy s.writer 0x1000 1).1.map (fun i => ((imagePart i 0 0).isSome, q.takes 257 i)) = some (true, true) ∧
       (s.die 0).gmRefine = true ∧ 0 ∈ s.graphDies 257) := by decide +kernel
theorem meets_GraphsAndStrokes_alone : ∀ n, (graphBed (some (graph1 none)) 0).stroke n 257 = none := by
  intro n
  cases n <;> rfl

/-! ### States that meet the hypotheses: landings, engine words and the vector engine -/

/-- A landing of number 7 that is due. -/
def landing (k : LandKind) (arr : Option (Word × Nat) := none) (fromRec : Bool := false) : Landing :=
  { id := 7, due := 0, kind := k, unit := 7, row := 3071, data := 5, bytes := 1, cells := [(0xFFFFF, 9)], sw := 0, fromRec := fromRec, arrival := arr }

def landBed (l : List Landing) (p : List Pend := []) (k : Core := {}) (w : Wait := .none) : State :=
  { one { st := .active, lands := l, pend := p, wait := w } k with cur := { id := 7 } }

theorem meets_Landings :
    let found := fun (s : State) => (s.me.lands.find? fun l => l.id == s.cur.id && decide (l.due ≤ s.clk)).map fun l => (l.kind == .row, l.kind == .store, l.unit, l.arrival.isSome)
    (landBed []).cur.slot < 4 ∧ found (landBed [landing .row]) = some (true, false, 7, false) ∧
    found (landBed [landing .latch none true]) = some (false, false, 7, false) ∧ found (landBed [landing .store]) = some (false, true, 7, false) ∧
    found (landBed [landing .store (some (syncVa 64, 128))]) = some (false, true, 7, true) ∧
    (landBed [landing .row none true] [] { sw := 1 }).here.sw ≠ (landing .row none true).sw ∧
    (landBed []).here.cistern.poison = [] := by decide +kernel
theorem meets_Landings_answers :
    let pend := fun (s : State) => (s.findPend s.cur.die s.cur.core s.cur.slot s.cur.id).map fun p => (p.answered && p.late.isNone, p.dest, p.vals)
    pend (landBed [] [answered (.row 3071) []]) = some (true, .row 3071, []) ∧
    (landBed [] [answered (.row 3071) []]).here.rowHeld (answered (.row 3071) []) = false ∧
    pend (landBed [] [answered (.x (63 : BitVec 6).toNat) [5]] {} (.answer 7)) = some (true, .x 63, [5]) ∧
    pend (landBed [] [answered (.x2 0 63) [5, 6]]) = some (true, .x2 (0 : BitVec 6).toNat (63 : BitVec 6).toNat, [5, 6]) ∧
    (let k : Core := { tmpl := { entries := [(255, { loading := [(5, none), (6, some 0)] })] } }
     ((landBed [] [] k).here.tmpl.get {} 255).loading = [(5, none), (6, some 0)]) ∧
    (let k : Core := { tmpl := { entries := [(255, { loading := [(6, some 0)] })] } }
     ((landBed [] [] k).here.tmpl.get {} 255).loading = [(6, some 0)]) := by decide +kernel

/-- A core whose template entries 63 of the matrix and vector engines are given. -/
def entryBed (m v : TemplateEntry) : State :=
  one { st := .active, x := regs [(1, ownVa 0xFFFF0)], vw := Vector.replicate 8 (32 * 2 ^ 29) } { tmpl := { entries := [(63, v), (127, m)] }, ctx := ctx1 }

/-- MWAIT as a template. -/
def mwait1 : Template := (encodeTemplate (.mwait 7)).getD 0

/-- The template fmak of ch. 03. -/
def fmak : Template := 0x80003400008452000823_40D180000000

theorem meets_EngineWords :
    let s := entryBed { t := mwait1 } { t := fmak }
    let z := { s with cur := s.cur }
    s.cur.slot < 4 ∧ s.nodeOf 0 0 0 = none ∧ s.myDie.strokeRuns = false ∧ (s.here.entry .mat 63).loading = [] ∧
    (s.here.entry .mat 63).poisoned = none ∧ amendPatch .mat (s.here.entry .mat 63).t 0x3F 0 = some mwait1 ∧
    reads (decodeTemplate .mat mwait1) (.mwait 7) = true ∧
    finds (s.copyCmd (.mwait 7) (s.newCmd mwait1 63)) (fun k => k.t == mwait1 && (s.issueCmd 0 0 .mat (.mwait 7) k).isSome) = true ∧
    amendPatch .mat mwait1 0x3E 0 = none ∧ (decodeTemplate .mat 0).toOption.isNone = true ∧
    (s.here.entry .vec 63).t = fmak ∧ amendPatch .vec fmak 12 0xA4 = some 0x80003400008452000823_40D200000000 ∧
    ((decodeVec fmak).map fun w => !s.rmFault w && s.me.regHazard w.regs [] s.clk == .clear &&
      finds (s.vTriggers w) fun r => decide (s.me.outstanding + r.2 ≤ 8)) = some true ∧ (decodeVec (BitVec.allOnes 128)).isNone = true ∧
    s.me.regHazard [1, 0] [] s.clk = .clear ∧ s.rx 1 = BitVec.ofNat 64 (0xFFFF000000000000 + 0xFFFF0) ∧ 0xFFFF0 % 16 = 0 ∧
    s.here.held 0xFFFF0 16 false = false ∧ s.here.held 0xFFFF0 16 true = false ∧ s.here.pendingBytes 0xFFFF0 (0xFFFF0 + 16) = false ∧
    s.here.lateAt 0xFFFF0 (0xFFFF0 + 16) = none ∧ s.me.dbgp = false ∧ s.bad (.cistern 0 0 0xFFFF0) 16 = false ∧
    z.here.queueUsed .smp = false ∧ (one {} { smp := { queue := [{ id := 0, t := 0, idx := 0, slot := 0, at_ := 0 }] } }).here.queueUsed .smp = true ∧
    ((entryBed { loading := [(0, none)] } {}).here.entry .mat 63).loading ≠ [] ∧
    ((entryBed { poisoned := some 8 } {}).here.entry .mat 63).poisoned = some 8 := by decide +kernel

/-- A trigger of the unit mem on elements of a type, with every lane on. -/
def trig1 (t : EType) (u : EType := t) : VTrig :=
  { pc := 0, unit := 7, ety := t, mask := BitVec.allOnes 128, a := 0, b := 0, c := 0, t := 0, a64 := ownVa 0x20000, b64 := ownVa 0x20000
    c64 := 0, t64 := 4, trow := some 6143, drow := 6143, dety := u, nw := false }

def vecBed (v : VTrig) (k : Core := {}) (x : Slot := {}) : State :=
  let s := one { x with st := .active } { k with ctx := ctx1 }
  { s with cur := { trig := some v } }

theorem meets_VectorArithmetic :
    (vecBed (trig1 .f32)).cur.slot < 4 ∧ EType.f32.fmt = some fp32 ∧ EType.i8.fmt = none ∧ EType.i8.w < 4 ∧ EType.i8.w = 1 ∧ EType.i16.w = 2 ∧
    EType.bf16.fmt = some bf16 ∧ EType.bf16.w = 2 ∧ EType.n32.w = 4 ∧ EType.n32 ≠ .f32 := by decide +kernel
theorem meets_SpecialFunctions :
    (vecBed (trig1 .bf16)).cur.slot < 4 ∧ EType.bf16 ≠ .f32 ∧ (∀ n m k, sfuValue .rcp (fp32.decode 0x7FC00000) ≠ .fin n m k) ∧
    (∀ n m k, fp32.decode 0x7F800000 ≠ .fin n m k) := by
  refine ⟨by decide, by decide, fun n m k => ?_, fun n m k => ?_⟩
  · rw [show sfuValue .rcp (fp32.decode 0x7FC00000) = .nan from by decide +kernel]
    exact Fp.noConfusion
  · rw [show fp32.decode 0x7F800000 = .inf false from by decide +kernel]
    exact Fp.noConfusion
theorem meets_VectorConversions :
    let v := trig1 .f32 .bf16
    let bad := fun (v : VTrig) => ((List.range v.dety.lanes).filter fun d =>
      ((v.source d).map fun l => v.ety.fmt.isSome && (v.ety.val (v.ety.lane v.t l)).nonFinite).getD false).length
    let n := { v with t := 0x7F800000 }
    (vecBed v).cur.slot < 4 ∧ (blockFmt ({ v with c64 := 0x48 }.ctl 3 5)).isSome = true ∧ (blockFmt (blkFmt (rowNat 9 0 64))).isSome = true ∧
    bad v = 0 ∧ 0 < bad n ∧ (vecBed n { nfPol := true }).here.nfPol = true ∧ (vecBed n).here.nfPol = false ∧ (vecBed n).here.nfSeen = false ∧
    (vecBed n { nfSeen := true }).here.nfSeen = true := by decide +kernel
theorem meets_VectorStreamsAndPermutations :
    let s := vecBed (trig1 .n32) {} { bs := { cur := Vector.replicate 32 31 } }
    let v := { trig1 .n32 with t := 1, trow := none }
    s.cur.slot < 4 ∧ (trig1 .n32).trow = some 6143 ∧ v.trow = none ∧ v.on 0 = true ∧
    32 ≤ vget s.me.bs.cur 0 0 + min (laneW 4 v.t 0 % 64) 32 ∧ ¬ 32 ≤ vget s.me.bs.cur 1 0 + min (laneW 4 v.t 1 % 64) 32 := by decide +kernel

theorem meets_VectorMemory :
    let v := trig1 .n32
    let s := vecBed v
    let at_ := fun (o : Nat) => BitVec.ofNat 64 (0xFFFF000000000000 + o)
    let half := fun (h : Nat) => ∃ l, l < 64 / 4 ∧ v.mask.getLsbD (h * (64 / 4) + l) = true
    s.cur.slot < 4 ∧ 0x20000 % 64 = 0 ∧ 0x20000 + 128 ≤ 2 ^ 20 ∧ v.b64 = at_ 0x20000 ∧ s.here.sb = [] ∧ s.me.dbgp = false ∧
    s.here.cistern.poison = [] ∧ half 0 ∧ half 1 ∧ s.here.held 0x20000 64 false = false ∧ s.here.held 0x20040 64 true = false ∧
    s.here.pendingBytes 0x20000 (0x20000 + 64) = false ∧ s.here.lateAt 0x20000 (0x20000 + 64) = none ∧
    s.here.pendingBytes 0x20040 (0x20040 + 64) = false ∧ s.here.lateAt 0x20040 (0x20040 + 64) = none ∧
    (let y := { v with t64 := syncVa 0x3FFFC0 }
     (y.t64.toNat / 2 ^ 40 = 0xFFFF04) ∧ finds ((vecBed y).vstaPhaser y) (fun l => l == (.sync 0 0x3FFFC0, none)) = true) ∧
    (∀ l, l < EType.n32.lanes → ({ v with mask := 0 } : VTrig).on l = false) ∧
    (∀ l, l < EType.n32.lanes → (0x20000 + 4 * l) % 4 = 0 ∧ 0x20000 + 4 * l + 4 ≤ 2 ^ 20 ∧
      v.a64 + BitVec.ofNat 64 l * v.t64 = at_ (0x20000 + 4 * l) ∧ s.here.held (0x20000 + 4 * l) 4 false = false ∧
      s.here.held (0x20000 + 4 * l) 4 true = false ∧ s.here.pendingBytes (0x20000 + 4 * l) (0x20000 + 4 * l + 4) = false ∧
      s.here.lateAt (0x20000 + 4 * l) (0x20000 + 4 * l + 4) = none ∧ s.here.cistern.poisoned 8 (0x20000 + 4 * l) 4 = false) ∧
    (∀ l, l < EType.n32.lanes → v.a64 + BitVec.ofInt 64 (EType.n32.index (EType.n32.lane v.t l) * 4) = at_ 0x20000) ∧ s.here.vqTaken < 8 := by decide +kernel
theorem meets_VectorMemory_elsewhere :
    let v := { trig1 .n32 with t64 := syncVa 0x400000 }
    let s := vecBed v
    let l := Loc.sync 0 0x400000
    s.here.vqTaken < 8 ∧ (∀ h, h < 2 → (v.t64 + BitVec.ofNat 64 (64 * h)).toNat / 2 ^ 40 ≠ 0xFFFF00) ∧ s.syncWaits l = false ∧
    s.bad l 64 = false ∧ s.bad (l.plus 64) 64 = false ∧ s.classWaits 0 = false ∧ s.myDie.strokeRuns = false ∧
    finds (s.vLoadReady v (.row v.t64)) (fun ps => !s.fixedLoad (.row v.t64) ps) = true ∧
    finds (s.vLoadReady v (.strided v.t64 4)) (fun ps => !s.fixedLoad (.strided v.t64 4) ps) = true ∧
    finds (s.vLoadReady v (.indexed v.t64)) (fun ps => !s.fixedLoad (.indexed v.t64) ps) = true ∧
    (∀ i, i < EType.n32.lanes → s.bad (l.plus (i * 4)) 4 = false) ∧
    finds (s.operand v.t64 64 64 rightsR) (· == .loc l) = true ∧ finds (s.operand (v.t64 + 64) 64 64 rightsR) (· == .loc (l.plus 64)) = true ∧
    finds (s.operand v.t64 64 64 rightsW) (· == .loc l) = true ∧ finds (s.operand (v.t64 + 64) 64 64 rightsW) (· == .loc (l.plus 64)) = true := by
  decide +kernel
theorem meets_VectorMemory_blocks :
    let v := { trig1 .f32 with t64 := ownVa 0x20000 }
    let cells : List (Nat × Byte) := [(0x20000, 9), (0x20040, 9), (0x20080, 9)]
    let s := vecBed v { cistern := { cells := cells } }
    (blockFmt 9).isSome = true ∧ s.here.vqTaken < 8 ∧ (∃ l, l < EType.f32.lanes ∧ v.on l = true) ∧
    (∀ k, k < 3 → let l := Loc.cistern 0 0 (0x20000 + 64 * k)
      finds (s.blockPlace v (v.t64 + BitVec.ofNat 64 (64 * k))) (· == .loc l) = true ∧ s.bad l 64 = false ∧ blkFmt (s.peek l 64) = 9) ∧
    (∀ l, l < EType.f32.lanes → (v.firstElem + l) / (BFmt.flt fp32).n < 3) := by decide +kernel
theorem meets_VectorMemory_arrival :
    let s := fun (gates : List (Nat × Nat)) => winBed win1 { comb := [comb1], arrivals := [
      { id := 0, slot := 0, addr := BitVec.ofNat 64 (0xFFFF040000000000 + 0xFFFF * 64), n := 128, cls := 15, gates := gates }] }
    let held := fun (s : State) => (s.here.arrivals.find? fun a => a.id == s.cur.id).map fun a => (s.arrivalHeld a, a.addr)
    held (s []) = some (false, BitVec.ofNat 64 (0xFFFF040000000000 + 0xFFFF * 64)) ∧ 0xFFFF < 2 ^ 24 ∧
    (held (s [(63, 0)])).map (·.1) = some true := by decide +kernel

/-! ### States that meet the hypotheses: the matrix, copy and sampling engines -/

/-- Command 7 of slot 0, issued in clk 0. -/
def cmd7 (i : Instr) (slot : Nat := 0) : Cmd := { id := 7, t := (encodeTemplate i).getD 0, idx := 0, slot := slot, at_ := 0 }

/-- A scratch tile of n lines at the first byte of scratch, and an accumulator tile of n lines at the first of its own. -/
def scratchTile (n : Nat) (st : TileState := .ready) : Tile := { state := st, size := n, base := 0x800 }
def accTile (n : Nat) (st : TileState := .ready) : Tile := { state := st, acc := true, size := n, base := 0x3000 }

/-- Tile 0 in scratch and tile 255 in the accumulator partition. -/
def tiles (a b : Tile) : Tab Tile := { entries := [(0, a), (255, b)] }

/-- A core whose matrix engine has a command at its head, in clk 1. -/
def matBed (i : Instr) (k : Core := {}) (c : List (Nat × Byte) := []) (f : Matrix → Matrix := id) : State :=
  { one {} { k with ctx := ctx1, mat := f { queue := [cmd7 i] }, cistern := { cells := c }
                    tiles := if k.tiles.entries.isEmpty then tiles (scratchTile 64) (accTile 2048) else k.tiles } with clk := 1, cur := { id := 7 } }

/-- A matrix command starts and meets its tiles. -/
def matStarts (s : State) (i : Instr) : Bool :=
  let k := s.here
  (k.mat.running.find? (fun r => r.cmd.id == s.cur.id)).isNone &&
  ((k.matStarts s.clk).map fun y => (y.1.id == s.cur.id && y.1.pos == 0 && s.handleOk 0 0 (cphOf y.1.t), y.2)) == some (true, i) &&
  ((k.matrixUses i).reads ++ (k.matrixUses i).accs).all fun t => !(k.tile t).leftEmpty

/-- A check passes. -/
def passes {ε : Type} (x : Except ε Unit) : Bool := match x with | .ok _ => true | .error _ => false

theorem meets_MatrixPlanesAndControl :
    let i : Instr := .mlds 0xFFFF 0 0 1 64 0
    let s := matBed i {} [(0x20000, 5)]
    let m := mldsMeaning 0 0 1 64 1
    (∀ j ∈ ([.mhad 0, .mswp 0, .mred 0 1, .mwait 0, .mstat 0 0 0, .mzro 0 255] : List Instr), matStarts (matBed j) j = true) ∧
    matStarts s i = true ∧ (0 : BitVec 6).toNat + 1 ≤ 32 ∧ passes (m.check s.here) = true ∧ (blockFmt (blkFmt (s.peek (.cistern 0 0 0x20000) 64))).isSome = true ∧
    (blockFmt 5).map (fun f => blocksOf f (64 * 1)) = some 1 ∧ s.here.cistern.poisoned 8 0x20000 64 = false ∧
    s.here.part.admits (s.here.tile 0) = true ∧ (s.here.tile 0).covers 0x20000 64 = true ∧ (s.here.tile 255).size ≠ 0 ∧
    s.here.part.admits (s.here.tile 255) = true := by decide +kernel
theorem meets_MatrixPlanesAndControl_ends :
    let empty := fun (i : Instr) => matBed i { tiles := tiles (scratchTile 64 .empty) (accTile 2048 .empty) }
    let r : Run := { cmd := cmd7 (.mwait 0) 3, start := 0, laneFree := 0, done := 1 }
    let s := matBed (.mwait 0) {} [] fun m => { m with queue := [], running := [r] }
    (∀ i ∈ ([.mlds 0 0 0 1 64 31, .mxbw 0 0 0 0 63 0 0 0, .mstr 0 255 0 0 1 1 0 0 0 0 0 32] : List Instr),
      ((empty i).here.matStarts 1).isSome = true ∧
      ((((empty i).here.matrixUses i).reads ++ ((empty i).here.matrixUses i).accs).find? fun t => ((empty i).here.tile t).leftEmpty).isSome = true) ∧
    (s.here.mat.running.find? (fun r => r.cmd.id == s.cur.id)).map (fun r => (r.laneFree, r.done, r.cmd.slot)) = some (0, 1, 3) ∧
    s.cur.n = 0 ∧ ({ s with cur := { id := 7, n := 1 } } : State).cur.n = 1 := by decide +kernel

def mstrOf (nr : Nat) (src : Nat) (soff : Nat) : MstrArgs :=
  { ot := 255, orow := 0, nr := nr, acc := true, src := src, st := 0, bits := true, soff := soff, kstr := if src = 0 then 32 else 0, koff := 0, kn := 32 }

/-- Every one of a list is a value. -/
def allOk {ε α : Type} (l : List (Except ε α)) : Bool := l.all fun x => match x with | .ok _ => true | .error _ => false

theorem meets_MatrixStreams_products :
    let panels : Instr := .mstr 0 255 0 63 1 1 0 1 62 0 0 32
    let stream : Instr := .mstr 0 255 0 0 1 0 0 0 0 32 0 32
    let s := matBed panels
    let r := matBed panels {} [] fun m => { m with redundant := true }
    let b := matBed stream {} [(0x20000, 1), (0x20040, 1)]
    matStarts s panels = true ∧ passes ((mstrOf 64 1 62).check s.here) = true ∧ s.here.cistern.poison = [] ∧ 64 ≤ 64 ∧
    allOk ((List.range 64).map ((mstrOf 64 1 62).activation s.here)) = true ∧
    r.here.mat.redundant = true ∧ passes ((mstrOf 32 1 62).check r.here) = true ∧
    matStarts b stream = true ∧ passes (({ mstrOf 1 0 0 with bits := false } : MstrArgs).check b.here) = true ∧
    allOk [({ mstrOf 1 0 0 with bits := false } : MstrArgs).activation b.here 0] = true := by decide +kernel

def mdrnOf (fmt nr : Nat) (raw : Bool) : MdrnArgs :=
  { it := 255, irow := 0, nr := nr, ot := 0, ooff := 0, fmt := fmt, raw := raw, rm := .rne, hnorm := false, rot := false, sdiv := false
    grad := true, nfc := 0, seed := 0 }

/-- A drain of nr + 1 rows in a format, raw or into blocks, starts and passes its checks. -/
def drains (fmt : BitVec 5) (nr : BitVec 10) (raw : BitVec 1) : Bool :=
  let i : Instr := .mdrn 0 255 0 nr 0 0 fmt raw 0 0 0 0 1 0 0
  matStarts (matBed i) i && passes ((mdrnOf fmt.toNat (nr.toNat + 1) (raw == 1)).check (matBed i).here)

theorem meets_MatrixStreams_drains : drains 1 63 1 = true ∧ drains 9 31 1 = true ∧ drains 3 63 0 = true := by decide +kernel
theorem meets_MatrixStreams_drains_through :
    (mdrnOf 1 64 true).stops (matBed (.mdrn 0 255 0 63 0 0 1 1 0 0 0 0 1 0 0)).here 0 64 = none ∧ (blockFmt 3).isSome = true := by decide +kernel
theorem meets_MatrixStreams_lane (c : Bool) : (mdrnOf 1 64 true).lane c 1 0 = (.zero false, 0, false) := by cases c <;> rfl
theorem meets_MatrixStreams_panels :
    let acc : Instr := .mxbw 0 255 0 1 63 0 4 0
    let str : Instr := .mxbw 0 0 0 0 63 0 0 0
    let out := fun (f : BitVec 1) => Instr.mxbl 0 63 0 1 0 0 f
    let a := matBed acc
    let b := matBed str {} ((List.range 9).map fun b => (0x20000 + 64 * b, 5))
    matStarts a acc = true ∧ (a.here.tile 255).size ≠ 0 ∧ a.here.part.admits (a.here.tile 255) = true ∧ (a.here.tile 255).acc = true ∧
    (a.here.tile 255).covers 0xC0000 4096 = true ∧ a.here.cistern.poisoned 8 0xC0000 4096 = false ∧
    matStarts b str = true ∧ (b.here.tile 0).acc = false ∧ (b.here.tile 0).covers 0x20000 64 = true ∧ 0x20000 + 64 ≤ 2 ^ 20 ∧
    b.here.streamFmt 0x20000 = 5 ∧
    ((blockFmt 5).map fun f => (blocksOf f 1024, (b.here.tile 0).covers 0x20000 (9 * 64))) = some (9, true) ∧
    (∀ n, n < 9 → blkFmt (b.peek (.cistern 0 0 (0x20000 + 64 * n)) 64) = 5 ∧ b.here.cistern.poisoned 8 (0x20000 + 64 * n) 64 = false) ∧
    (∀ f ∈ ([0, 1] : List (BitVec 1)), matStarts (matBed (out f)) (out f) = true ∧
      ((matBed (out f)).here.tile 0).covers 0x20000 (mxblBytes 0 (f == 1)) = true) ∧ a.here.panelsBad = [] := by decide +kernel

/-- A copy descriptor: source, destination, row bytes, rows, XARG, DPH and AUX; strides of one row. -/
def desc1 (src dst : Word) (rowb : Nat) (rows : Nat := 1) (xarg : Nat := 0) (dph aux : Word := 0) : BitVec 512 :=
  BitVec.ofNat 512 (src.toNat + dst.toNat * 2 ^ 64 + rowb * 2 ^ 128 + rows * 2 ^ 160 + rowb * 2 ^ 192 + rowb * 2 ^ 256 +
    xarg * 2 ^ 336 + dph.toNat * 2 ^ 384 + aux.toNat * 2 ^ 448)

/-- Copy 7: opcode 1 to 7 in a template without CPH, with its descriptor. -/
def copyCmd7 (op : Nat) (d : BitVec 512) : Cmd := { id := 7, t := BitVec.ofNat 128 (op * 2 ^ 120), idx := 0, slot := 0, at_ := 0, desc := d }

/-- A machine whose core has copy 7 in flight at a stage. -/
def copyBed (r : Run) (n : Nat := 0) (f : Core → Core := id) (x : Die := {}) : State :=
  { one {} (f { ctx := ctx1, cpy := { flight := [r], portOut := 9, portIn := 9 } }) x with clk := 1, cur := { id := 7, n := n } }

def run7 (op : Nat) (d : BitVec 512) (stage : Nat) : Run := { cmd := copyCmd7 op d, start := 0, laneFree := 0, done := 0, stage := stage }

/-- From the first line of scratch to the last. -/
def inner : BitVec 512 := desc1 (ownVa 0x20000) (ownVa 0xBFFC0) 64

theorem meets_Copies_heads :
    let q := fun (x : Cmd) => { one {} { cpy := { queue := [x] } } with clk := 1, cur := { id := 7 } }
    ((q (copyCmd7 1 inner)).here.copyHead 1).map (fun x => templateOp x.t) = some 1 ∧
    ((q { copyCmd7 1 inner with t := (encodeTemplate (.cpyx 0 5)).getD 0 }).here.copyHead 1).map (fun x => (templateOp x.t, x.id)) = some (8, 7) ∧
    (q (copyCmd7 1 inner)).handleOk 0 0 0 = true := by decide +kernel
theorem meets_Copies_cancels :
    let x : Run := { run7 1 inner 1 with cmd := { copyCmd7 1 inner with id := 8 } }
    let q := fun (n : Nat) => copyBed { x with acks := n } 0 fun k =>
      { k with cpy := { k.cpy with queue := [{ copyCmd7 1 inner with t := (encodeTemplate (.cpyx 5 0)).getD 0 }] } }
    (∀ n, n < 2 → ((q n).here.copyHead 1).map (fun y => (templateOp y.t, y.id)) = some (8, 7) ∧ (q n).handleOk 0 0 5 = true ∧
      (q n).here.cpy.flight.map (fun y => (y.cmd.id, y.acks)) = [(8, n)]) ∧
    (let w : Switch := { op := 1, rst := false, cph := 0, save := 0, inp := 0, stat := 0, start := 0, step := .closed, closedAt := 7 }
     let s := copyBed (run7 1 inner 1) 0 fun k => { k with switch := some w }
     s.here.switch = some w ∧ w.step = .closed ∧ w.closedAt = s.cur.id) := by decide +kernel
theorem meets_Copies_starts :
    let s := copyBed (run7 1 inner 0)
    let m := copyBed (run7 2 (desc1 (ownVa 0x20000) (ownVa 0xBFFC0) 64 1 7) 0) 0 id { groups := { entries := [(7, { members := [(0, 1)] })] } }
    s.handleOk 0 0 0xFFFF = true ∧
    (s.here.copyRun 7).map (fun r => (r.stage, s.here.copyStarts r 1, (s.copyBad 0 0 r.cmd).isNone, r.fault + r.acks, r.lines.isEmpty)) = some (0, true, true, 0, true) ∧
    (m.here.copyRun 7).map (fun r => ((m.copyBad 0 0 r.cmd).isNone, m.myDie.groupCores (descXarg r.cmd.desc))) = some (true, [0]) ∧
    ownOffset (descSrc inner) = some 0x20000 ∧ ownOffset (descDst inner) = some 0xBFFC0 ∧
    region (s.here.copySrc (copyCmd7 1 inner) 0) = .own 0x20000 ∧ s.here.ownLine (copyCmd7 1 inner) 0x20000 false = true ∧
    s.here.cistern.poisoned 8 0x20000 64 = false ∧ (s.copyBad 0 0 (copyCmd7 1 (desc1 0 0 8))).isSome = true := by decide +kernel
theorem meets_Copies_compress :
    let c := { copyBed (run7 5 (desc1 (ownVa 0x20000) 0x1000 256 1 0 0 (ownVa 0x30000)) 0) with clk := 9 }
    (c.here.copyRun 7).map (fun r => ((c.copyBad 0 0 r.cmd).isNone, r.fault, r.cmd.staged, descRows r.cmd.desc, descRowb r.cmd.desc, r.cmd.rowBlocks)) =
      some (true, 0, false, 1, 256, 2) ∧
    (c.here.copyRun 7).map (fun r => (ownOffset (descSrc r.cmd.desc), ownOffset (descAux r.cmd.desc), ownOffset (descDst r.cmd.desc))) =
      some (some 0x20000, some 0x30000, none) ∧ c.here.cistern.poison = [] ∧ 0x20000 + max 256 (2 * 64) ≤ 0x30000 := by decide +kernel

/-- CPYR between lines of scratch, one clk before its line is written; a copy of the constant store. -/
def lineRun : Run := { run7 7 (desc1 (ownVa 0x20000) (ownVa 0xBFFC0) 64 1 4) 1 with lines := [(0, 5)] }
def lineBed : State := { copyBed lineRun 1 with clk := 2 }
def farRun : Run := run7 1 (desc1 0xFFFF030000000000 (ownVa 0xBFFC0) 64) 1
def farBed : State := copyBed farRun 1
def farQ : Run := { farRun with cmd := { farRun.cmd with pos := 1 }, lines := [(0, farBed.peek (.const 0) 64)] }
def farBed3 : State := (farBed.upRun 0 0 7 fun _ => farQ).modCore 0 0 fun k => { k with cpy := { k.cpy with portIn := farBed.clk } }

theorem meets_Copies_lines :
    (lineBed.here.copyRun 7).map (fun r => (r.stage, r.fault, r.ownEnds 0, r.lines.length, templateOp r.cmd.t)) = some (1, 0, true, 1, 7) ∧
    lineBed.cur.n = 1 ∧ 0 + 2 + lineRun.start = lineBed.clk ∧ lineRun.cmd.lineCount ≤ 2 ∧ region (lineRun.cmd.dst 0) = .own 0xBFFC0 ∧
    lineBed.here.ownLine lineRun.cmd 0xBFFC0 true = true ∧ lineBed.here.cistern.poisoned 8 0xBFFC0 64 = false := by decide +kernel
theorem meets_Copies_lines_far :
    (farBed.here.copyRun 7).map (fun r => (r.stage, r.fault, r.ownEnds 0, r.lines.length, templateOp r.cmd.t)) = some (1, 0, false, 0, 1) ∧
    farBed.here.lineOut farRun 0 = false ∧ farQ.lineIn 0 0 = true ∧ farBed.here.cpy.portIn ≠ farBed.clk ∧ farRun.src = [] ∧ farRun.cmd.pos < farRun.cmd.lineCount ∧
    ((farBed.copyEnd 0 0 farRun.cmd (farBed.here.copySrc farRun.cmd 0) rightsR).1.toOption == some (.loc (.const 0))) = true ∧
    farBed.bad (.const 0) 64 = false ∧ ((farBed3.copyEnds 0 0 farQ 0).1.toOption == some [.loc (.cistern 0 0 0xBFFC0)]) = true ∧
    farBed.bad (.cistern 0 0 0xBFFC0) 64 = false := by decide +kernel
theorem meets_Copies_lines_alone (s : State) (x : Cmd) :
    (s.copyEnd 0 0 x 0xFFFF030000000000 rightsR).2 = s := by
  unfold State.copyEnd
  rw [show region 0xFFFF030000000000 = .const 0 from by decide]

theorem meets_Copies_ends :
    let s := copyBed (run7 1 (desc1 (ownVa 0x20000) (ownVa 0xBFFC0) 64 1 0 (syncVa 0x3FFFC0)) 1)
    let p := fun (r : Run) => { r with cmd := { r.cmd with pos := 1 } }
    let two := fun (op : Nat) => copyBed (run7 op inner 2)
    (s.here.copyRun 7).map (fun r => r.fault == 0 && r.acks == 0 && r.stage == 1 && r.lines.isEmpty && (p r).cmd.lineCount == 1 &&
      (p r).cmd.pos == 1 && r.done == 0 && r.hosts.isEmpty) = some true ∧
    (s.here.copyRun 7).map (fun r => descDph r.cmd.desc) = some (BitVec.ofNat 64 (0xFFFF040000000000 + 0xFFFF * 64)) ∧
    descDph inner = 0 ∧ ((two 1).here.copyRun 7).map (fun r => (r.stage, templateOp r.cmd.t)) = some (2, 1) ∧
    ((two 3).here.copyRun 7).map (fun r => (r.stage, templateOp r.cmd.t)) = some (2, 3) := by decide +kernel
theorem meets_Copies_ends_more :
    let push := copyBed (run7 4 (desc1 (ownVa 0x20000) (ownVa 0xBFFC0) 64 1 0 0 (ownVa 0xFFFC0)) 2)
    let next := copyBed { run7 3 inner 3 with cmd := { copyCmd7 3 inner with follow := mwait1 } }
    (push.here.copyRun 7).map (fun r => (r.stage, templateOp r.cmd.t, region (descAux r.cmd.desc))) = some (2, 4, .own 0xFFFC0) ∧
    push.myDie.rdy.getLsbD 18 = true ∧ push.here.cistern.poisoned 8 0xFFFC0 64 = false ∧
    (next.here.copyRun 7).map (fun r => (r.stage, reads (decodeTemplate .mat r.cmd.follow) (.mwait 7),
      (next.issueCmd 0 0 .mat (.mwait 7) { r.cmd with t := r.cmd.follow, idx := 0, desc := 0, follow := 0, pos := 0 }).isSome)) = some (3, true, true) := by decide +kernel

set_option exponentiation.threshold 1000 in
set_option maxRecDepth 20000 in
theorem meets_Copies_push :
    let s := copyBed (run7 4 (desc1 (ownVa 0x20000) (ownVa 0xBFFC0) 64 1 0 0 (ownVa 0xFFFC0)) 2)
    ((s.upRun 0 0 7 fun r => { r with stage := 3 }).pushLocal 0 0 (s.peek (.cistern 0 0 0xFFFC0) 64) 1).1.toNat < 2 ^ 32 := by
  have h : ∀ n : Nat, (BitVec.ofNat 64 (n % 65536)).toNat < 2 ^ 32 := fun n => by rw [BitVec.toNat_ofNat]; omega
  exact h (Config.choice 0)

/-- A core whose sampling engine has a command at its head or running, in clk 1: tiles 0 and 1 in scratch, 255 an
accumulator. -/
def smpBed (i : Instr) (running : Bool := false) (cur : Subject := {}) (m : Sampling := {}) (cells : List (Nat × Byte) := []) : State :=
  let r : Run := { cmd := cmd7 i, start := 0, laneFree := 0, done := 1 }
  let m := if running then { m with running := some r } else { m with queue := [cmd7 i] }
  { one {} { ctx := ctx1, smp := m, cistern := { cells := cells }
             tiles := { entries := [(0, scratchTile 64), (1, { scratchTile 64 with base := 0x840 }), (255, accTile 64)] } } with
    clk := 1, cur := { cur with id := 7 } }

/-- A sampling command starts. -/
def smpStarts (s : State) (i : Instr) : Bool :=
  ((s.here.smpStarts s.clk).map fun y => (y.1.id == s.cur.id && s.handleOk 0 0 (cphOf y.1.t), y.2)) == some (true, i) && passes (s.here.smpFirst i)

theorem meets_SampledProducts_commands :
    (∀ i ∈ ([.sset 0xFFFF 0x3C23D70A 2 2 4096, .sseed 0 5, .scnt 0 5, .ntoff 0 3, .nten 0 3 0 0 64 2 1 16384 16383 1, .ntrd 0 3 1 0 1,
        .alb 0 0 0 0 63 1 1 0, .svarStore 0 0 63, .svarLoad 0 0 63, .smpl 0 255 1 1 0 0 0 0 32 1 0 1] : List Instr), smpStarts (smpBed i) i = true) := by
  decide +kernel
theorem meets_SampledProducts_tiles :
    let k := (smpBed (.sseed 0 5)).here
    let ch : Sampling := { ch := Vector.replicate 4 { vlen := 16384 } }
    k.part.admits (k.tile 0) = true ∧ (k.tile 0).covers 0x20000 (64 * 64) = true ∧ (64 : BitVec 16) ≠ 0 ∧ k.smp.overlaps 3 16383 1 = false ∧
    (vget ch.ch 3 {}).vlen ≠ 0 ∧ (accTile 2048).covers 0xC0000 65536 = true ∧ k.part.admits (accTile 2048) = true := by decide +kernel
theorem meets_SampledProducts_alias :
    let k := (smpBed (.alb 0 0 0 0 63 1 1 0)).here
    let a := k.tileAt 0 0
    let b := k.tileAt 0 63
    let o := k.tileAt 1 0
    passes (allOf [k.smpInside 0 none a 4, k.smpInside 0 none b 4, k.smpInside 1 (some false) o 16]) = true ∧ rangesMeet a 4 o 16 = false ∧
    rangesMeet b 4 o 16 = false ∧ k.cistern.poison = [] ∧ badNorm (k.cistern.readNat a 4) = false ∧ badNorm (k.cistern.readNat b 4) = false := by
  decide +kernel
theorem meets_SampledProducts_record :
    let s := smpBed (.svarLoad 0 0 63) false {} {} [(0x20FC0 + 52, 2), (0x20FC0 + 56, 2), (0x20FC0 + 61, 16)]
    (s.here.tile 0).covers (s.here.tileAt 0 63) 64 = true ∧ s.here.cistern.poisoned 8 0x20FC0 64 = false ∧
    recordLegal (s.peek (.cistern 0 0 0x20FC0) 64) = true := by decide +kernel

/-- The product of tile 1 by tile 1 with the table in tile 0 into tile 255, one pair. -/
def smpl1 (start : BitVec 1) : Instr := .smpl 0 255 start 1 0 1 0 1 32 0 0 1
def smplArgs1 : SmplArgs := { ot := 255, start := true, raw := true, p0 := 0, at_ := 1, aoff := 0, bt := 1, boff := 32, tt := 0, toff := 0, n := 1 }

theorem meets_SampledProducts_product :
    let s := smpBed (smpl1 1)
    let r := fun (n : Nat) (m : Sampling) => smpBed (smpl1 1) true { n := n } m
    smpStarts s (smpl1 1) = true ∧ s.here.smp.running.isNone = true ∧ passes (smplArgs1.check s.here) = true ∧ 0 < s.here.smp.nmax.toNat ∧
    s.here.mat.redundant = false ∧ s.here.closed = false ∧
    4096 ≤ ({ s.here.tile 255 with size := 128 } : Tile).half ∧ s.here.cistern.poisoned 8 (s.here.tile 255).lo 4096 = false ∧
    s.here.smp.sumsBad = [] ∧ ((r 0 {}).here.smp.running.map fun r => (r.cmd.id, r.done)) = some (7, 1) ∧
    (smplArgs1.draw (r 0 {}).here 0).toOption = some 0 ∧ (r 0 {}).here.smp.cnt.toNat + 1 < 2 ^ 32 ∧
    (r 1 {}).cur.n = 1 ∧ (r 1 {}).cur.val = BitVec.ofNat 64 0 ∧ (r 2 {}).cur.n = 2 ∧
    (r 0 { nmin := 2, cnt := 1 }).here.smp.checks 2 = true ∧ (r 0 {}).here.smp.checks 1 = false := by decide +kernel
theorem meets_SampledProducts_verdicts :
    (smplArgs1.verdict (smpBed (smpl1 1) true { n := 2 } { cnt := 2, nmin := 2 }).here 2).2.isSome = true ∧
    (smplArgs1.verdict (smpBed (smpl1 1) true { n := 2 } { cnt := 2, nmin := 2, q := 0x3FF0000000000000 }).here 2).2.isNone = true := by decide +kernel
theorem meets_SampledProducts_ends :
    let s := smpBed (.alb 0xFFFF 0 0 0 63 1 1 0) true
    (s.here.smp.running.map fun r => r.cmd.id == s.cur.id && decide (r.done ≤ s.clk) && cphOf r.cmd.t == 0xFFFF &&
      reads (decodeTemplate .smp r.cmd.t) (.alb 0xFFFF 0 0 0 63 1 1 0)) = some true := by decide +kernel

/-! ### States that meet the hypotheses: players and the macro unit -/

/-- A core whose player stands at an entry of graph 257, with a stroke. -/
def playBed (e : TraceEntry) (r : Stroke := { token := 5, mode := .replay, key := 0, desc := [], origin := 0 }) (x : Die := {}) (k : Core := {}) : State :=
  let n : Node := { entry := 0, args := Vector.replicate 4 0, kind := 0, pure_ := false, die := 0, dl := 0, pbind := 0, aff := 0, queue := 0, npred := 0, succ := [] }
  let g : Graph := { asid := 1, nparam := 0, phbase := 1, job := 0, nodes := [n], phasers := [], shape := [], run := some r }
  one {} { k with ctx := ctx1, player := { act := true, gid := 257, part := some { core := 0, entries := [e] } } }
    { x with graphs := { entries := [(257, g)] } }

/-- What a player's statement asks of its state. -/
def plays (s : State) (kind : TraceKind) (cancelled : Bool) : Bool :=
  (s.here.plays.map (·.kind)) == some kind && ((s.graph 0 257).bind (·.run)).isSome && s.playerCancelled 0 0 == cancelled

theorem meets_Players_entries :
    (∀ k ∈ ([.mark, .guard, .waitn, .phwait, .pharv, .template, .call, .done, .end_] : List TraceKind), plays (playBed { kind := k }) k false = true) ∧
    ((playBed { kind := .waitn }).stroke 0 257).map (fun r => r.bits.contains 0) = some false ∧
    ((playBed { kind := .waitn } { token := 5, mode := .replay, key := 0, desc := [], origin := 0, bits := [0] }).stroke 0 257).map (fun r => r.bits.contains 0) = some true ∧
    (playBed { kind := .call }).here.prefetch.length < 2 ∧ 2 ≤ (playBed { kind := .call } (k := { prefetch := [1, 2] })).here.prefetch.length ∧
    (playBed { kind := .done }).here.player.stopping = false ∧ (playBed { kind := .end_ }).waitingPart 0 0 = none ∧
    ((playBed { kind := .end_ }).here.player.part.map (·.core)) = some 0 ∧ (playBed { kind := .pharv }).myDie.waiters = [] ∧
    (playBed { kind := .end_ } (k := { player := { act := true, call := some 3 } })).here.player.call = none ∧
    (one {} { player := { act := true, gid := 257, call := some 3 } }).here.awaitsCall = true := by decide +kernel
theorem meets_Players_phasers :
    let at_ := Loc.sync 0 ((1 + 0) * 64)
    let s := fun (q : Phaser) (e : TraceEntry) => (playBed e).setPhaser at_ q
    let v := { Phaser.zero with valid := true }
    plays (s v { kind := .phwait }) .phwait false = true ∧ ((s v { kind := .phwait }).phaser at_).valid = true ∧
    phasePassed ((s { v with ph := 1 } { kind := .phwait }).phaser at_).ph 0 = true ∧ phasePassed ((s v { kind := .phwait }).phaser at_).ph 0 = false ∧
    ((playBed { kind := .phwait }).phaser at_).valid = false ∧
    (let q := (s { v with ph := 1, errPh := 0, lcode := 9 } { kind := .phwait }).phaser at_
     phasePassed q.ph 0 = true ∧ 0 % 2 ^ 32 = q.errPh ∧ BitVec.ofNat 64 q.lcode ≠ 0#64) ∧
    (let q := (s { v with ns := 1 } { kind := .pharv }).phaser at_
     q.ns + q.nsw ≤ (q.arr + 1) % 2 ^ 16 ∧ q.exp ≤ (q.byt + 0) % 2 ^ 64 ∧ 0 < q.ns + q.nsw + q.exp) ∧
    (let q := (s { v with ns := 2 } { kind := .pharv }).phaser at_
     q.valid = true ∧ ¬ (q.ns + q.nsw ≤ (q.arr + 1) % 2 ^ 16)) := by decide +kernel
theorem meets_Players_lines :
    let at_ := Loc.sync 0 ((1 + 0) * 64)
    let s := playBed { kind := .phwait }
    let dark : State := { s with dies := { entries := [(0, { s.myDie with rdy := 0 })] } }
    let bad := playBed { kind := .pharv } (x := { sync := { poison := [8] } })
    s.syncWaits at_ = false ∧ s.bad at_ 64 = false ∧ dark.syncWaits at_ = true ∧ plays dark .phwait false = true ∧
    bad.syncWaits at_ = false ∧ bad.bad at_ 64 = true ∧ plays bad .pharv false = true := by decide +kernel
theorem meets_Players_templates :
    let e : TraceEntry := { kind := .template, a := mwait1, aux := 1 }
    let s := playBed e
    let x : Cmd := { id := 0, t := mwait1, idx := 0, slot := 0, at_ := 0, token := 5 }
    let full := playBed e (k := { mat := { queue := List.replicate 8 (cmd7 (.mwait 0)) } })
    plays s .template false = true ∧ reads (decodeTemplate .mat mwait1) (.mwait 7) = true ∧
    (s.agentCopy (.mwait 7) x).toOption.map (fun y => y.map (·.t)) = some (some mwait1) ∧ (s.issueCmd 0 0 .mat (.mwait 7) x).isSome = true ∧
    (full.issueCmd 0 0 .mat (.mwait 7) x).isNone = true ∧ (Engine.ofCode 1 == .mat) = true ∧ (decodeTemplate .mat 0).toOption.isNone = true := by
  decide +kernel
theorem meets_Players_cancelled :
    let s := playBed { kind := .end_ } (x := { tokens := [5] })
    plays s .end_ true = true ∧ (s.stroke 0 257).map (fun r => r.todo.length) = some 0 ∧
    (∀ y ∈ s.myDie.graphs.entries, y.2.run.isSome → y.1 = 257) := by decide +kernel

/-- An expansion whose micro-operation is the word w. -/
def expand1 : Expansion := { kind := 0, addr := ownVa 0x20000, p := 0, n := 1, token := 0, lcore := 0, lslot := 0, lid := 7, asid := 1, priv := false }
def microBed (w : Word) (f : Expanding → Expanding := id) (k : Core := {}) (x : Die := {}) : State :=
  one {} { k with ctx := ctx1, macro_ := { store := { entries := [(2046, w)] }, run := some (f { e := expand1, upc := 2046 }) } } x

/-- A micro-operation of a kind and of a sub-operation is taken. -/
def micro (s : State) (kind sub : Nat) : Bool :=
  ((s.here.microWord).map fun y => uLegal y.2 && uKind y.2 == kind && uSub y.2 == sub && !s.here.macro_.poisoned.contains y.1.upc) == some true

/-- The micro-word of a kind with MD, MA, MB, SUB and IMM. -/
def uWord (kind md ma mb sub imm : Nat) : Word :=
  BitVec.ofNat 64 (kind * 2 ^ 60 + md * 2 ^ 56 + ma * 2 ^ 52 + mb * 2 ^ 48 + sub * 2 ^ 44 + imm)

theorem meets_MicroOperations_control :
    micro (microBed (uWord 0 0 0 0 0 0)) 0 0 = true ∧ uLegal (uWord 9 0 0 0 0 0) = false ∧
    (∀ n, n < 11 → micro (microBed (uWord 2 15 14 13 n 120)) 2 n = true) ∧
    micro (microBed (uWord 3 0 1 0 0 1)) 3 0 = true ∧ micro (microBed (uWord 4 0 0 0 0 0)) 4 0 = true ∧ micro (microBed (uWord 8 0 1 0 0 1)) 8 0 = true ∧
    (∀ n, n < 2 → micro (microBed (uWord 5 0 1 0 n 0)) 5 n = true) ∧ micro (microBed (uWord 6 0 1 0 0 0)) 6 0 = true ∧
    micro (microBed (uWord 1 0 1 2 13 63)) 1 13 = true ∧ micro (microBed (uWord 7 0 1 2 0 0)) 7 0 = true ∧
    (List.replicate 3 (1, 0, 0)).length < 4 ∧ 4 ≤ (List.replicate 4 (1, 0, 0)).length ∧ (0 : Int) ≤ 2047 ∧ (2047 : Int) < 2048 ∧ ¬ (2048 : Int) < 2048 := by decide +kernel
theorem meets_MicroOperations_phasers :
    let o := 0x3FFFC0
    let l := Loc.sync 0 o
    let s := fun (q : Phaser) => (microBed (uWord 5 0 1 0 1 0) fun x => { x with mr := x.mr.setIfInBounds 1 (syncVa o) }).setPhaser l q
    let v := { Phaser.zero with valid := true }
    micro (s v) 5 1 = true ∧ syncVa o = BitVec.ofNat 64 (0xFFFF040000000000 + o) ∧ o % 64 = 0 ∧ 64 ≤ o ∧ o < 0x400000 ∧ (s v).granted 0 0 o = true ∧
    ((s v).phaser l).valid = true ∧ (Phaser.zero).valid = false ∧ phasePassed ((s v).phaser l).ph 0 = false ∧
    (let q := (s { v with ph := 1, errPh := 1 }).phaser l; phasePassed q.ph 0 = true ∧ 0 ≠ q.errPh) ∧
    (let q := (s { v with ph := 1, errPh := 0, lcode := 255 }).phaser l; phasePassed q.ph 0 = true ∧ 0 = q.errPh ∧ 0 < q.lcode ∧ q.lcode < 2 ^ 8) ∧
    (s v).syncWaits l = false ∧ (s v).bad l 64 = false ∧
    (let dark : State := { s v with dies := { entries := [(0, { (s v).myDie with rdy := 0 })] } }
     dark.syncWaits l = true) ∧
    (s v).myDie.waiters = [] ∧ ((s v).here.macro_.run.map fun x => decide (x.upc < 2047)) = some true := by decide +kernel
theorem meets_MicroOperations_commands :
    let k : Core := { tmpl := { entries := [(127, { t := mwait1 })] } }
    let s := microBed (uWord 1 0 1 2 1 63) id k
    let live := microBed (uWord 5 0 0 0 0 0) (fun x => { x with cmds := [(1, 7)] }) { k with mat := { queue := [cmd7 (.mwait 0)] } }
    let x : Cmd := { id := 0, t := mwait1, idx := 63, slot := 0, at_ := 0, macro_ := true }
    micro s 1 1 = true ∧ (s.here.entry .mat 63).loading = [] ∧ (s.here.entry .mat 63).poisoned = none ∧
    (turned 0 .mat (amendPairs .mat mwait1 none none) == mwait1) = true ∧ reads (decodeTemplate .mat mwait1) (.mwait 7) = true ∧
    (s.agentCopy (.mwait 7) x).toOption.map (fun y => y.map (·.t)) = some (some mwait1) ∧ (s.issueCmd 0 0 .mat (.mwait 7) x).isSome = true ∧
    live.here.cmdLive 7 = true ∧ s.here.cmdLive 7 = false ∧ (decodeTemplate .mat 0).toOption.isNone = true ∧
    ((microBed 0 id { mat := { queue := List.replicate 8 (cmd7 (.mwait 0)) } }).issueCmd 0 0 .mat (.mwait 7) x).isNone = true := by decide +kernel

/-- A layer descriptor as bytes: dimensions 1 and the addresses of the update in scratch. -/
def layer1 : List Byte :=
  (List.range 128).map fun i => if i ∈ [0, 12, 16, 20] then 1
    else BitVec.ofNat 8 ((if 32 ≤ i ∧ i < 40 then 0xFFFF000000020000 else if 56 ≤ i ∧ i < 64 then 0xFFFF000000021000
      else if 72 ≤ i ∧ i < 80 then 0xFFFF000000022000 else 0) / 2 ^ (8 * (i % 8)))

theorem meets_MicroOperations_update :
    let s := microBed (uWord 7 0 1 2 0 0) fun x => { x with desc := layer1, mr := x.mr.setIfInBounds 2 1 }
    let c := fun (o : Nat) => Loc.cistern 0 0 o
    (s.here.macro_.run.map fun x => ((s.optPlaces x 0).1, x.opt, decide (x.upc < 2047))) =
      some (some { g := c 0x21000, m := c 0x22000, v := c 0x22004, w := c 0x20000 }, 0, true) ∧
    s.here.sb = [] ∧ (∀ n, n < 256 → (s.here.tile n).acc = false) ∧
    (fp32.decode (s.peek (c 0x21000) 4)).nonFinite = false ∧ (bf16.decode (s.peek (c 0x20000) 2)).nonFinite = false := by decide +kernel

/-- A machine whose slot names the group of its thread, with a layer descriptor at 0x20000. -/
def layerBed (k : Core := {}) (p : List Pend := []) (d : List Byte := layer1) : State :=
  one { st := .active, pend := p, x := regs [(1, ownVa 0x20000), (2, 4095), (3, 4096), (4, ownVa 0xFFFF8), (5, 2047), (6, 0x800), (7, 0x8000000), (8, 2048)] }
    { k with ctx := ctx1, cistern := { cells := ((List.range 128).zip d).filterMap fun e => if e.2 = 0 then none else some (0x20000 + e.1, e.2) } }
    { groups := { entries := [(4095, { members := [(0, 1)] })] } }

theorem meets_LayerMacros_accepted :
    let s := layerBed
    (s.cur.slot < 4 ∧ (s.rx 1).toNat % 64 = 0 ∧ (s.rx 4).toNat % 64 ≠ 0 ∧ (s.rx 2).toNat < 4096 ∧ 4096 ≤ (s.rx 3).toNat ∧
      lowestRank [(0, 1)] = s.thread ∧ (s.myDie.groups.find 4095).map (·.members) = some [(0, 1)] ∧ rankOrder [(0, 1)] = [(0, 0)] ∧
      (s.core 0 0).macro_.queue.length + 1 ≤ 4) ∧
    s.fenceClear (s.releaseSet 2) := ⟨by decide +kernel, fenceClear_of _ _ (by decide +kernel)⟩
theorem meets_LayerMacros_expansions :
    let q : Macro := { queue := [expand1] }
    let s := layerBed { macro_ := q }
    let z := layerBed { macro_ := q } [] []
    let f := fun (s : State) => layerOk ((List.range 128).map fun i => BitVec.ofNat 8 (s.peek (.cistern 0 0 (0x20000 + i)) 1))
    let e := layerBed { macro_ := { run := some { e := expand1, upc := 0, ended := true } } }
      [{ answered (.x 1) [0, 0] with answered := false, left := 1 }]
    s.here.macro_.run.isNone = true ∧ s.here.macro_.queue.length = 1 ∧ s.here.closed = false ∧ (s.layerBytes expand1).1.isSome = true ∧
    ((layerBed { macro_ := q } [] layer1).layerBytes { expand1 with addr := ownVa 0xFFFC0 }).1.isNone = true ∧ expand1.addr = BitVec.ofNat 64 (0xFFFF000000000000 + 0x20000) ∧
    s.here.cistern.poisoned 8 0x20000 128 = false ∧ f s = true ∧ f z = false ∧ e.expansionCancelled 0 0 = false ∧
    (e.here.macro_.run.map fun x => (x.ended, x.cmds.length, x.e.lslot)) = some (true, 0, 0) ∧ e.saves.entries.length = 0 ∧
    (e.findPend 0 0 0 7).map (fun y => (y.vals, y.left)) = some ([0, 0], 1) := by decide +kernel
theorem meets_LayerMacros_store :
    let s := layerBed
    s.rx 4 = BitVec.ofNat 64 (0xFFFF000000000000 + 0xFFFF8) ∧ s.rx 5 = BitVec.ofNat 64 (2047 + 0 * 2 ^ 16) ∧ 2047 + 0 + 1 ≤ 2048 ∧ 0xFFFF8 % 8 = 0 ∧
    0xFFFF8 + 8 * (0 + 1) ≤ 2 ^ 20 ∧ s.here.macro_.run.isNone = true ∧ s.here.macro_.queue.isEmpty = true ∧ s.here.sb = [] ∧
    s.here.cistern.poisoned 8 0xFFFF8 8 = false ∧ (s.rx 6).toNat / 2 ^ 11 % 2 ^ 5 ≠ 0 ∧ 2 ^ 27 ≤ (s.rx 7).toNat ∧ (s.rx 5).toNat < 2 ^ 11 ∧
    2 ^ 11 ≤ (s.rx 8).toNat := by decide +kernel

/-! ### States that meet the hypotheses: contexts and the host -/

/-- A launch descriptor of ASID 1 with the whole sync region and CORE.PART as at reset, and the header of a save area, as
numbers. -/
def image1 (fmt : Nat) : Nat :=
  ([(0, fmt), (1, 15), (2, 1), (16, 0x20), (17, 0x40), (18, 1), (19, 1), (29, 0x40), (265, 0x20), (273, 0x40), (281, 0x60), (289, 0x80)] : List (Nat × Nat)).foldl
    (fun v e => v + e.2 * 2 ^ (8 * e.1)) 0

def switch1 (op : Nat) (rst : Bool := false) (inp : Nat := 0) (step : SwitchStep := .stopping) : Switch :=
  { op := op, rst := rst, cph := 0xFFFF, save := 0x200000, inp := inp, stat := 0x400000, start := 0, step := step }

/-- Core 0 of die 0 with a switch, and a memory. -/
def switchBed (w : Option Switch) (k : Core := {}) (m : Mem := {}) (cur : Subject := {}) : State :=
  { bed { k with switch := w } { hbm := m } with cur := cur }

theorem poison_writeNat (m : Mem) (n a v : Nat) : (m.writeNat a n v).poison = m.poison := by
  induction n generalizing m a v with
  | zero => rfl
  | succ n ih => exact (ih _ _ _).trans rfl

/-- The first bytes of a longer read. -/
theorem readNat_prefix (m : Mem) (j k a : Nat) : m.readNat a (k + j) % 256 ^ k = m.readNat a k := by
  induction k generalizing a with
  | zero => exact Nat.mod_one _
  | succ k ih =>
    have e : k + 1 + j = k + j + 1 := by omega
    have r := (m.read a).isLt
    rw [e, Mem.readNat, Mem.readNat, ← ih, Nat.pow_succ, Nat.mul_comm (256 ^ k), Nat.mod_mul,
      show ∀ n, ((m.read a).toNat + 256 * n) % 256 = (m.read a).toNat from fun n => by omega,
      show ∀ n, ((m.read a).toNat + 256 * n) / 256 = n from fun n => by omega]

/-- An image of n + j bytes written at 0: its first n bytes are what the device reads there. -/
theorem physRead_prefix (w : Option Switch) (k : Core) (n j v : Nat)
    (h : (switchBed w k (({} : Mem).writeNat 0 (n + j) v)).physRange 0 0 n = some (.hbm 0 0)) :
    (switchBed w k (({} : Mem).writeNat 0 (n + j) v)).physRead 0 0 n = some (v % 256 ^ (n + j) % 256 ^ n) := by
  have hb : (switchBed w k (({} : Mem).writeNat 0 (n + j) v)).bad (.hbm 0 0) n = false := by
    show (({} : Mem).writeNat 0 (n + j) v).poison.any _ = false
    rw [poison_writeNat]; rfl
  have hp : (switchBed w k (({} : Mem).writeNat 0 (n + j) v)).peek (.hbm 0 0) n = v % 256 ^ (n + j) % 256 ^ n :=
    ((readNat_prefix _ j n 0).symm.trans (congrArg (· % 256 ^ n) (Mem.readNat_writeNat {} (n + j) 0 v)))
  rw [State.physRead, h, Option.bind_some, hb, hp]
  exact if_neg Bool.false_ne_true

/-- An image of n bytes written at 0 is what the device reads there. -/
theorem physRead_image (w : Option Switch) (k : Core) (n v : Nat) (h : (switchBed w k (({} : Mem).writeNat 0 n v)).physRange 0 0 n = some (.hbm 0 0)) :
    (switchBed w k (({} : Mem).writeNat 0 n v)).physRead 0 0 n = some (v % 256 ^ n) := by
  have hb : (switchBed w k (({} : Mem).writeNat 0 n v)).bad (.hbm 0 0) n = false := by
    show (({} : Mem).writeNat 0 n v).poison.any _ = false
    rw [poison_writeNat]; rfl
  have hp : (switchBed w k (({} : Mem).writeNat 0 n v)).peek (.hbm 0 0) n = v % 256 ^ n := Mem.readNat_writeNat {} n 0 v
  rw [State.physRead, h, Option.bind_some, hb, hp]
  exact if_neg Bool.false_ne_true

theorem meets_ContextSwitches_images :
    let far := 384 * 2 ^ 30
    let s := switchBed (some (switch1 0))
    let dark : State := { dies := { entries := [(0, die [(0, { switch := some (switch1 0) })])] } }
    (∀ e ∈ s.dies.entries, e.2.waiters.length = 0) ∧ (switchBed none).here.switch.isNone = true ∧ s.here.switch.isSome = true ∧
    (switchBed (some (switch1 0)) { ctx := ctx1 }).here.ctx.valid = true ∧ dark.here.ctx.valid = false ∧ dark.myDie.rdy.getLsbD 8 = false ∧
    s.here.ctx.valid = false ∧ s.myDie.rdy.getLsbD 8 = true ∧ s.physRead 0 far 4608 = none ∧ s.myDie.graphs.entries.length = 0 ∧
    s.saves.entries.length = 0 ∧ s.physRange 0 far 0x150000 = none := by decide +kernel
theorem meets_ContextSwitches_launch :
    let v := image1 1 % 256 ^ 4608
    let ok := fun (v : Nat) => launchOk v 1 fun n => imageF v (512 + 16 * n) 16
    (switchBed (some (switch1 0)) {} (({} : Mem).writeNat 0 4608 (image1 1))).physRead 0 0 4608 = some v ∧
    imageF v 4 4 % 2 = 0 ∧ ok v = true ∧ imageF v 80 8 = 0 ∧ ok 0 = false ∧ imageF 0 4 4 % 2 = 0 ∧
    ok (v + 2 ^ 640) = true ∧ imageF (v + 2 ^ 640) 80 8 % 64 ≠ 0 ∧
    ok (v + 2 ^ 646) = true ∧ imageF (v + 2 ^ 646) 80 8 ≠ 0 ∧ imageF (v + 2 ^ 646) 80 8 % 64 = 0 :=
  ⟨physRead_image _ _ _ _ (by decide +kernel), by decide +kernel⟩
theorem meets_ContextSwitches_templates :
    let n := image1 1 + 2 ^ 32
    let s := switchBed (some (switch1 0)) {} (({} : Mem).writeNat 0 (4608 + 16384) n)
    let h := n % 256 ^ (4608 + 16384) % 256 ^ 4608
    s.physRead 0 0 4608 = some h ∧ s.physRead 0 0 20992 = some (n % 256 ^ 20992) ∧ imageF h 4 4 % 2 = 1 ∧
    launchOk (n % 256 ^ 20992) 1 (fun i => imageF (n % 256 ^ 20992) (512 + 16 * i) 16) = true :=
  ⟨physRead_prefix _ _ _ _ _ (by decide +kernel), physRead_image _ _ 20992 _ (by decide +kernel), by decide +kernel⟩
theorem meets_ContextSwitches_restore :
    let v := image1 2 % 256 ^ 0x50000
    let s := switchBed (some (switch1 3 true)) {} (({} : Mem).writeNat 0 0x50000 (image1 2))
    s.physRead 0 0 0x50000 = some v ∧ s.physRange 0 0 0x150000 = some (.hbm 0 0) ∧
    launchOk v 2 (fun n => imageF v (0x1000 + 16 * n) 16) = true ∧ launchOk 0 2 (fun n => imageF 0 (0x1000 + 16 * n) 16) = false :=
  ⟨physRead_image _ _ _ _ (by decide +kernel), by decide +kernel⟩

theorem meets_ContextSwitches_saves :
    let s := fun (p : BitVec 4) (n : Nat) (m : List (Nat × Byte)) => switchBed (some (switch1 2)) { ctx := { ctx1 with prio := p } } { cells := m } { n := n }
    let e := fun (n : Nat) => switchBed (some (switch1 2)) {} {} { n := n }
    let far := switchBed (some (switch1 2 false (384 * 2 ^ 30))) { ctx := ctx1 }
    (e 0).here.ctx.valid = false ∧ (e 2).cur.n ≠ 1 ∧ (e 1).cur.n = 1 ∧ (e 1).myDie.rdy.getLsbD 8 = true ∧ far.cur.n = 0 ∧ far.here.ctx.valid = true ∧
    far.physRead 0 (384 * 2 ^ 30) 64 = none ∧
    ((s 15 0 [(1, 15)]).physRead 0 0 64).map (fun v => decide ((15 : BitVec 4).toNat ≤ imageF v 1 1 % 16)) = some true ∧
    ((s 15 0 [(1, 14)]).physRead 0 0 64).map (fun v => decide (imageF v 1 1 % 16 < (15 : BitVec 4).toNat)) = some true ∧
    (s 0 2 []).cur.n = 2 ∧ (s 0 2 []).here.prefetch.isEmpty = true ∧
    (∀ i, i < 4 → ((s 0 2 []).here.slot i).wait = .none) := by decide +kernel

/-- A save that has come to a step, on a core with the slots given. -/
def savesBed (w : Switch) (xs : Vector Slot 4) (k : Core := {}) : State := switchBed (some w) { k with ctx := ctx1, slots := xs }

theorem meets_ContextSwitches_closes :
    let far := 384 * 2 ^ 30
    let open_ := savesBed (switch1 1) #v[{ st := .active }, {}, {}, {}]
    let rest := savesBed (switch1 1) #v[{ st := .ready, stopped := true }, {}, {}, {}]
    let closed := fun (op : Nat) => savesBed (switch1 op false 0 .closed) (Vector.replicate 4 {})
    let owes := savesBed (switch1 1 false 0 .closed) (Vector.replicate 4 {}) { tmpl := { entries := [(0, { loading := [(0, none)] })] } }
    let none_ := savesBed { switch1 1 false 0 .closed with save := far } (Vector.replicate 4 {})
    (∀ i, i < 4 → (open_.here.slot i).halts = true → (open_.here.slot i).armed = false) ∧
    (let l : Landing := { id := 0, due := 3, kind := .row, unit := 0, row := 128, data := 5, bytes := 1, cells := [], sw := 0, fromRec := true,
                          arrival := none }
     let x := (savesBed (switch1 1) #v[{ st := .ready, stopped := true, armed := true, lrec := [l] }, {}, {}, {}]).here.slot 0
     x.halts = true ∧ x.armed = true ∧ x.lrec ≠ []) ∧
    (∃ i, i < 4 ∧ (open_.here.slot i).atRest = false) ∧ (∀ i, i < 4 → (rest.here.slot i).atRest = true) ∧ rest.here.comb.isEmpty = true ∧
    (closed 4).here.mat.running.isEmpty = true ∧ (∀ i, i < 4 → ((closed 4).here.slot i).wait = .none) ∧ owes.owesNothing 0 0 = false ∧
    (closed 4).owesNothing 0 0 = true ∧ none_.physRange 0 far 0x150000 = none ∧ none_.owesNothing 0 0 = true ∧
    (closed 1).physRange 0 0x200000 0x150000 = some (.hbm 0 0x200000) ∧ (closed 2).owesNothing 0 0 = true ∧
    4096 * (closed 2).here.part.regg ≤ 2 ^ 20 := by decide +kernel
theorem meets_ContextSwitches_hardStops :
    let x := fun (t : Option Nat) => { savesBed (switch1 1) #v[{ st := .active, task := t }, {}, {}, {}] with
      dies := { entries := [(0, die [(0, { ctx := ctx1, switch := some (switch1 1), slots := #v[{ st := .active, task := t }, {}, {}, {}] })]
        { rdy := 0x3FFFFF, recs := { entries := [(3, rec1 0 .running)] } })] } }
    (∀ t ∈ [none, some 3], (∀ j, j < 4 → j ≠ 0 → ((x t).here.slot j).halts = true) ∧ ((x t).here.slot 0).halts = false ∧
      ((x t).here.slot 0).st = .active ∧ ((x t).here.slot 0).stopped = false ∧ (∀ i, i < 4 → ((x t).here.slot i).wait = .none)) ∧
    (let y := savesBed (switch1 1) #v[{ st := .ready, stopped := true, lands := [{ id := 0, due := 3, kind := .row, unit := 0, row := 128, data := 5,
                                                                                   bytes := 1, cells := [], sw := 0, fromRec := false, arrival := none }] }, {}, {}, {}]
     ∀ i, i < 4 → (y.here.slot i).halts = true) ∧
    ((x (some 3)).here.slot 0).task = some 3 ∧ ((x (some 3)).myDie.recs.find 3).map (·.node) = some none ∧
    ((x none).here.switch.map fun w => (w.step == .stopping, w.start)) = some (true, 0) ∧
    (savesBed (switch1 1 false 0 .closed) (Vector.replicate 4 {})).here.switch.map (fun w => w.step == .stopping) = some false ∧
    (x none).physRange 0 0x400000 8 = some (.hbm 0 0x400000) ∧ (switch1 1).code < 256 ∧ (switch1 1).hstop < 16 := by decide +kernel
theorem meets_ContextSwitches_refusals :
    let s := switchBed none {} {} { n := 1, val := 0x400000, id := 0xFFFF }
    s.cur.n = 1 ∧ s.physRange 0 s.cur.val.toNat 8 = some (.hbm 0 0x400000) ∧ s.cur.id % 65536 ≠ 0 := by decide +kernel

/-- Page tables that map the first GiB onto physical address 0. -/
def tables : List (Nat × Byte) :=
  [(0x10000, 0x1D), (0x10001, 0x10), (0x10002, 1), (0x11000, 0x1D), (0x11001, 0x20), (0x11002, 1), (0x12000, 0x1F)]

def walkBed (m : List (Nat × Byte)) (rdy : BitVec 22 := 0x3FFFFF) : State :=
  { dies := { entries := [(0, die [(0, { ctx := { ctx1 with root := 32 }, slots := #v[{ st := .blocked, wait := .walk }, {}, {}, {}] })]
      { rdy := rdy, hbm := { cells := m } })] }, cur := { id := 32, val := 0x3FFF0000 } }

theorem meets_ContextSwitches_walks :
    (walkBed []).me.wait = .walk ∧ (walkBed [] 0xFFFFF).myDie.rdy.getLsbD 20 = false ∧ (walkBed []).myDie.rdy.getLsbD 20 = true ∧
    findPage (walkBed []).myDie.hub 1 0x3FFF0000 = none ∧ (walkBed []).walk 0 0 32 0x3FFF0000 = .fault ∧
    ({ walkBed [] with dies := { entries := [(0, die [(0, { ctx := ctx1 })] { rdy := 0x3FFFFF, hbm := { poison := [0x10000 / 32] } })] } } : State).walk 0 0 32 0x3FFF0000 =
      .unreadable 0x10000 ∧
    (walkBed tables).walk 0 0 32 0x3FFF0000 =
      .page { asid := 1, va := 0, size := 2 ^ 30, pa := 0, r := true, w := true, x := true, priv := false } ∧
    (switchBed none).me.wait ≠ .walk := by decide +kernel
theorem meets_ContextSwitches_host :
    let s := fun (n id : Nat) (l : HostLink) => { switchBed none {} {} { n := n, id := id } with hostLink := l }
    (s 24 0 .cxl).cur.n / 16 % 2 = 1 ∧ (s 40 8 .cxl).cur.n / 16 % 2 = 0 ∧ 32 ≤ (s 40 8 .cxl).cur.n ∧ 0 < min ((s 40 8 .cxl).cur.n % 16) 8 ∧
    (s 8 0 .pcie).hostLink ≠ .cxl ∧ (s 8 0 .cxl).hdmLoc 0 0 = some (.hbm 0 0) ∧ (s 8 (768 * 2 ^ 30) .cxl).hdmLoc 0 (768 * 2 ^ 30) = none := by
  decide +kernel

/-! ### States that meet the hypotheses: errors, links, power and bring-up -/

/-- Core 0 of die 0 with the subject given, and a fault ring of 64 entries of which `used` are filled. -/
def errBed (u : Subject) (used : BitVec 21 := 0) (x : Die := {}) (me : Slot := { st := .active }) : State :=
  { one me {} { x with fltBase := 1, fltLog := 6, fltTail := used } with cur := u }

/-- The same with a flit of packet 3 on link 4. -/
def flitBed (damaged : Bool) (incr resend : Nat) (st : BitVec 2 := 0) (retrain : Option Nat := none) : State :=
  let f : Flit := { seq := 1, pkt := pk .flag, damaged := damaged, incr := incr, resend := resend }
  errBed { n := 4, id := 3 } 0 { links := (Vector.replicate 6 {}).setIfInBounds 4 { st := st, retrain := retrain, flits := [f] } }

theorem meets_ErrorsLinksAndBringUp_ring :
    let s := errBed {}
    let f := errBed {} 64
    6 ≤ s.myDie.fltLog.toNat ∧ s.myDie.fltLog.toNat ≤ 20 ∧ (s.myDie.fltTail - s.myDie.fltHead).toNat < 2 ^ s.myDie.fltLog.toNat ∧
    ¬ (f.myDie.fltTail - f.myDie.fltHead).toNat < 2 ^ f.myDie.fltLog.toNat ∧ (∀ e ∈ s.myDie.graphs.entries, e.2.run.isNone = true) ∧
    0x2000 + hbmStack s.cur.id < 2 ^ 16 ∧ unitOfCore s.cur.core < 2 ^ 16 := by decide +kernel
theorem meets_ErrorsLinksAndBringUp_storages :
    let s := fun (n : Nat) (v : Word) => errBed { n := n, id := 8, val := v }
    let g := errBed {} 0 { graphs := { entries := [(257, graph1 (some (stroke1 .replay)))] } }
    (s 0 1).cur.val = 1 ∧ (s 0 0).cur.val = 0 ∧ (∀ n ∈ [1, 2], (s n 2).cur.n % 11 = n ∧ 2 ≤ (s n 2).cur.val.toNat) ∧
    (∀ n ∈ [0, 1, 2, 3, 4, 5, 6, 7, 8, 9, 10], (s n 1).cur.n % 11 = n) ∧
    (errBed { n := 6 } 0 {} {}).me.st = .free ∧ (s 6 1).cur.slot < 4 ∧ (s 6 1).cur.core < 2 ^ 12 ∧ (s 6 1).me.st ≠ .free ∧
    g.myDie.graphs.entries.length = 1 ∧
    ((g.myDie.graphs.find 257).bind (·.run)).map (fun r => r.mode == .replay) = some true := by decide +kernel
theorem meets_ErrorsLinksAndBringUp_flits :
    let l := fun (s : State) => vget s.myDie.links s.cur.n {}
    let f := fun (s : State) => ((l s).flits.find? fun f => f.pkt.id == s.cur.id).map fun f => (f.damaged, f.incr, f.resend)
    f (errBed { n := 4, id := 3 }) = none ∧ f (flitBed false 0 0) = some (false, 0, 0) ∧ f (flitBed true 0 0) = some (true, 0, 0) ∧
    f (flitBed true 1 2) = some (true, 1, 2) ∧ f (flitBed true 2 3) = some (true, 2, 3) ∧ (flitBed true 2 3).cur.n < 6 ∧
    (l (flitBed true 2 3)).retrain = none ∧ ((l (flitBed true 0 0 3)).retrain = none ∧ (l (flitBed true 0 0 3)).st = 3) ∧
    (∀ st ∈ [(0 : BitVec 2), 1], (l (flitBed true 0 0 st (some 3))).retrain = some (flitBed true 0 0 st (some 3)).cur.id ∧
      (l (flitBed true 0 0 st (some 3))).st.toNat < 2) ∧ 2 ≤ (l (flitBed true 0 0 2 (some 3))).st.toNat ∧
    (l (flitBed true 0 0)).retrain ≠ some (flitBed true 0 0).cur.id ∧
    (errBed { n := 6 }).cur.n = 6 := by decide +kernel
theorem meets_ErrorsLinksAndBringUp_power :
    let s := fun (n id : Nat) => errBed { n := n, id := id }
    let h := errBed {} 0 { hotSince := some 0 }
    (s 11 11).cur.n % 16 = 11 ∧ (s 12 11).cur.n % 16 = 12 ∧ (s 11 12).cur.id % 16 = 12 ∧ (s 15 0).cur.n % 16 = 15 ∧
    350 ≤ (s 0 0).myDie.pwrMv.toNat ∧ (s 0 0).myDie.hotSince = none ∧ h.myDie.hotSince = some h.cur.id ∧ (s 0 0).myDie.hotSince ≠ some (s 0 0).cur.id ∧
    h.myDie.halted = false ∧ (∀ id ∈ [350, 550], 350 ≤ (s 4095 id).cur.id ∧ (s 4095 id).cur.id ≤ 550) ∧ 0 < (s 4095 350).cur.n ∧ (s 4095 350).cur.n < 4096 := by
  decide +kernel
theorem meets_ErrorsLinksAndBringUp_bringUp :
    let s := fun (n id : Nat) => errBed { n := n, id := id }
    let p : State := { s 3736 0 with hostMem := { poison := [7] } }
    3736 ≤ (s 3736 0).cur.n ∧ (s 3736 0).bad (.host 0) 3736 = false ∧ ¬ 3736 ≤ (s 3735 0).cur.n ∧ p.bad (.host 0) 3736 = true ∧
    (s 0 3).cur.n ≠ 1 ∧ (s 0 3).cur.id < 4 ∧ (s 0 5).cur.id < 6 ∧ (s 1 0).cur.n = 1 ∧
    4 ≤ (s 0 4).cur.id ∧ 6 ≤ (s 0 6).cur.id := by decide +kernel

/-! ### States that meet the hypotheses: the step, encodings, memories -/

/-- A machine whose core 0 has the turn to issue a word. -/
def issueBed (w : Nat) (x : Slot := {}) (k : Core := {}) : State :=
  let c : Mem := ({} : Mem).writeNat 0x100 4 w
  { one { x with st := .active, pc := ownVa 0x100 } { k with cistern := c } with phase := .issue, turn := [(0, 0)] }

theorem meets_StepRunsTheDecodedInstruction_due :
    let a : Ev := { who := { n := 1 }, op := .correctableError }
    let s : State := { one {} with now := [a] }
    let t : State := { one {} with phase := .land, agenda := [(0, a)] }
    s.powered = true ∧ s.now = a :: [] ∧ t.now = [] ∧ t.phase = .land ∧ t.nextDue.isSome = true := by decide +kernel
theorem meets_StepRunsTheDecodedInstruction_word :
    let s := issueBed 0x14051234
    let p : State := { s with dies := { entries := [(0, die [(0, { s.here with cistern := { poison := [32] } })])] } }
    let l : LateTrap := { cause := 7, pc := 0, val := 0, info := 0 }
    let add : Instr := .add 5 6 3 true
    let full : Slot := { armed := true, lands := List.replicate 9 { id := 0, due := 9, kind := .row, unit := 0, row := 0, data := 0, bytes := 0, cells := [],
                                                                    sw := 0, fromRec := false, arrival := none } }
    let pend : Pend := { id := 1, dest := .x 6, sync := false, vq := false, acquire := false, answered := false, vals := [], data := 0, bytes := 0, late := none }
    s.powered = true ∧ s.now.length = 0 ∧ s.phase = .issue ∧ s.turn = (0, 0) :: [] ∧ (s.core 0 0).issues s.clk = some 0 ∧
    ((issueBed 0 full).me.armed = true ∧ 8 < (issueBed 0 full).me.lands.length + (issueBed 0 full).me.lrec.length) ∧
    (match ({ one { st := .active, pc := syncVa 0 } with phase := .issue, turn := [(0, 0)] } : State).fetchLoc with
      | .trap _ _ _ => true | _ => false) = true ∧
    (match ({ walkBed tables with dies := { entries := [(0, die [(0, { ctx := { ctx1 with root := 32 }, slots := #v[{ st := .active, pc := 0x3FFF0000 }, {}, {}, {}] })]
          { rdy := 0x3FFFFF, hbm := { cells := tables } })] } } : State).fetchLoc with
      | .walk va => va == 0x3FFF0000 | _ => false) = true ∧
    finds s.fetchLoc (· == .cistern 0 0 0x100) = true ∧ s.bad (.cistern 0 0 0x100) 4 = false ∧ p.bad (.cistern 0 0 0x100) 4 = true ∧
    BitVec.ofNat 32 (s.peek (.cistern 0 0 0x100) 4) = 0x14051234 ∧ reads (decodeWord 0x14051234) (.movi 0 5 0x1234) = true ∧
    reads (decodeWord 0) .eret = false ∧ privilegedOf .eret = true ∧ s.me.priv = false ∧ s.templateFaulted (.movi 0 5 0x1234) = false ∧
    (issueBed 0 {} { tmpl := { entries := [(5, { poisoned := some 3 })] } }).templateFaulted (.vx 5 12 0) = true ∧
    s.hazard (.movi 0 5 0x1234) = .clear ∧ (issueBed 0 { pend := [pend] }).hazard add = .blocked ∧
    (issueBed 0 { lock := [(6, 2)] }).hazard add = .held ∧ (issueBed 0 { lateX := [(6, l)] }).hazard add = .late l ∧
    shows (exec (.movi 0 5 0x1234) s) (fun _ => true) = true ∧ s.me.wait = .none ∧ (∀ e ∈ s.now, e.who.trig = none) ∧ s.cur.slot < 4 ∧
    s.me.pc = BitVec.ofNat 64 (0xFFFF000000000000 + s.me.pc.toNat % 2 ^ 40) ∧ s.me.pc.toNat % 2 ^ 40 < 2 ^ 20 := by decide +kernel
theorem meets_EncodingsAgree :
    (Instr.movi 0 5 0x1234).wf = true ∧ encode (.movi 0 5 0x1234) ≠ 0 ∧ reads (decodeWord 0x14051234) (.movi 0 5 0x1234) = true ∧
    (Instr.cpyf 6 6 0 0 0).wf = true ∧ encodeTemplate (.cpyf 6 6 0 0 0) = some 0x03000606000000000000000000000000 ∧
    reads (decodeTemplate .cpy 0x03000606000000000000000000000000) (.cpyf 6 6 0 0 0) = true := by decide +kernel
theorem reset_die (d : Nat) : State.reset.die d = Die.reset := by
  by_cases h0 : 0 = d <;> by_cases h1 : 1 = d <;> simp [State.die, State.reset, Tab.get, assocGet, h0, h1]
theorem reset_cistern (d c : Nat) : (State.reset.core d c).cistern = {} := by
  rw [State.core, reset_die]
  by_cases h : 768 = c <;> simp [Die.core, Die.reset, Tab.get, assocGet, h, Core.command]
  split <;> rfl
theorem meets_MemoriesStayCanonical : State.reset.memoriesWf ∧ shows (step State.reset) (fun _ => true) = true := by
  refine ⟨⟨by decide +kernel, fun d => ⟨?_, ?_, fun c => ?_⟩⟩, by decide +kernel⟩
  · rw [reset_die]; decide +kernel
  · rw [reset_die]; decide +kernel
  · rw [reset_cistern]; decide +kernel

/-! ### Words written out bit by bit from the encoding tables (R71–R88) -/

/-- R71, R78: class 0, op6 1, xd, xa, xb, sub4: 0000 000001 000101 000001 000010 0000 -/
theorem test_decode_formatA : reads (decodeWord 0b00000000010001010000010000100000) (.sub 5 1 2 false) = true := by decide +kernel
/-- R72: ADDSH op6 0x27, K and the shift amount: 0000 100111 000111 000011 100011 1101 -/
theorem test_decode_formatA_constant : reads (decodeWord 0b00001001110001110000111000111101) (.addsh 7 3 35 true 5) = true := by decide +kernel
/-- R72: source width 2: 0000 100011 000001 000010 000000 0010 -/
theorem test_decode_formatA_width : reads (decodeWord 0b00001000110000010000100000000010) (.sext 1 2 2) = true := by decide +kernel
/-- R73: class 1, imm10: 0001 000000 000101 000101 1111111111 -/
theorem test_decode_formatI : reads (decodeWord 0b00010000000001010001011111111111) (.addi 5 5 0x3FF) = true := by decide +kernel
/-- R73: imm10 [9:6] is 0: 0001 000111 000010 000011 0000 111111 -/
theorem test_decode_formatI_shift : reads (decodeWord 0b00010001110000100000110000111111) (.shrai 2 3 63) = true := by decide +kernel
/-- R73, R79: MOVK h2: 0001 010110 000101 1010101111001101 -/
theorem test_decode_formatW : reads (decodeWord 0b00010101100001011010101111001101) (.movk 2 5 0xABCD) = true := by decide +kernel
/-- R71, R80: op4 9, class 1, xs, xa, off8: 0010 1001 0001 000010 001010 11111111 -/
theorem test_decode_formatM : reads (decodeWord 0b00101001000100001000101011111111) (.stw 1 2 10 0xFF) = true := by decide +kernel
/-- R80: op4 0xB: 0010 1011 0000 000000 001010 00000001 -/
theorem test_decode_formatM_pref : reads (decodeWord 0b00101011000000000000101000000001) (.pref 0 10 1) = true := by decide +kernel
/-- R75, R81: op4 3: 0011 0011 000111 111111111111111110 -/
theorem test_decode_formatB : reads (decodeWord 0b00110011000111111111111111111110) (.bgez 7 0x3FFFE) = true := by decide +kernel
/-- R71: count12, end12: 0011 1000 000000000100 000000000111 -/
theorem test_decode_formatB_loopi : reads (decodeWord 0b00111000000000000100000000000111) (.loopi 4 7) = true := by decide +kernel
/-- R71, R82: op5 0x0A, xd, xa, xb, group: 0100 01010 000001 000010 000011 00100 -/
theorem test_decode_formatS : reads (decodeWord 0b01000101000000100001000001100100) (.amcas 1 2 3 4) = true := by decide +kernel
/-- R77: class mask: 0101 0000 00000000 1000000000000001 -/
theorem test_decode_formatF_fencec : reads (decodeWord 0b01010000000000001000000000000001) (.fencec 0x8001) = true := by decide +kernel
/-- R77: window, xa, index: 0101 0101 000010 000111 11 0000000000 -/
theorem test_decode_formatF_winrt : reads (decodeWord 0b01010101000010000111110000000000) (.winrt 2 7 3) = true := by decide +kernel
/-- R77: window, xd, xa: 0101 0110 000010 000001 000011 000000 -/
theorem test_decode_formatF_wallow : reads (decodeWord 0b01010110000010000001000011000000) (.wallow 2 1 3) = true := by decide +kernel
/-- R84: op6 4: 0110 000100 000000 001001 1001000000 -/
theorem test_decode_formatY : reads (decodeWord 0b01100001000000000010011001000000) (.csrwr 9 0x240) = true := by decide +kernel
/-- R84: op6 0x10: 0110 010000 000011 000000 0000000010 -/
theorem test_decode_formatY_thid : reads (decodeWord 0b01100100000000110000000000000010) (.thid 3 2) = true := by decide +kernel
/-- R85: op6 0, f4: 0111 000000 000001 000010 000011 0001 -/
theorem test_decode_formatT : reads (decodeWord 0b01110000000000010000100000110001) (.tkpush 1 2 3 1) = true := by decide +kernel
/-- R85: op6 0x12: 0111 010010 000001 000010 000011 0000 -/
theorem test_decode_formatT_lupd : reads (decodeWord 0b01110100100000010000100000110000) (.lupd 1 2 3) = true := by decide +kernel
/-- R86: engine 1, form 0: 1 01 0 000101 001100 0000000010100100 -/
theorem test_decode_patch : reads (decodeWord 0b10100001010011000000000010100100) (.mx 5 12 0xA4) = true := by decide +kernel
/-- R86, R88: engine 3, op6 0: 1 11 1 000000 000011 000100 0000 001001 -/
theorem test_decode_command : reads (decodeWord 0b11110000000000110001000000001001) (.ecmd .smp 3 4 9) = true := by decide +kernel
/-- R88: op6 2: 1 10 1 000010 000011 000000 0000 111111 -/
theorem test_decode_command_tplrd : reads (decodeWord 0b11010000100000110000000000111111) (.tplrd .cpy 3 63) = true := by decide +kernel
/-- R88: op6 4: 1 00 1 000100 000011 000000 0000000000 -/
theorem test_decode_command_ebusy : reads (decodeWord 0b10010001000000110000000000000000) (.ebusy .vec 3) = true := by decide +kernel
/-- R78: op6 0x2A: 0000 101010 000001 000010 000011 0000 -/
theorem test_decode_reserved_classA : (decodeTableWord 32 0b00001010100000010000100000110000).isNone = true := by decide +kernel
/-- R79: op6 0x0E: 0001 001110 000001 000010 0000000000 -/
theorem test_decode_reserved_classI : (decodeTableWord 32 0b00010011100000010000100000000000).isNone = true := by decide +kernel
/-- R80: op4 0xC: 0010 1100 0000 000001 000010 00000000 -/
theorem test_decode_reserved_classM : (decodeTableWord 32 0b00101100000000000100001000000000).isNone = true := by decide +kernel
/-- R81: op4 0xB: 0011 1011 000000 000000000000000000 -/
theorem test_decode_reserved_classB : (decodeTableWord 32 0b00111011000000000000000000000000).isNone = true := by decide +kernel
/-- R83: op4 0xA: 0101 1010 000000000000000000000000 -/
theorem test_decode_reserved_classF : (decodeTableWord 32 0b01011010000000000000000000000000).isNone = true := by decide +kernel
/-- R84: op6 0x15: 0110 010101 000000 000000 0000000000 -/
theorem test_decode_reserved_classY : (decodeTableWord 32 0b01100101010000000000000000000000).isNone = true := by decide +kernel
/-- R85: op6 0x15: 0111 010101 000000 000000 000000 0000 -/
theorem test_decode_reserved_classT : (decodeTableWord 32 0b01110101010000000000000000000000).isNone = true := by decide +kernel
/-- R88: op6 5: 1 00 1 000101 000000 000000 0000000000 -/
theorem test_decode_reserved_command : (decodeTableWord 32 0b10010001010000000000000000000000).isNone = true := by decide +kernel

/-- The examples of the engine chapters: templates put together field by field (R200, R243, and the example of 10). -/
theorem test_decode_mlds : reads (decodeTemplate .mat 0x010000020000207C0000000000000000) (.mlds 0 2 0 0 32 31) = true := by decide +kernel
theorem test_decode_cpyf : reads (decodeTemplate .cpy 0x03000606000000000000000000000000) (.cpyf 6 6 0 0 0) = true := by decide +kernel
theorem test_decode_alb : reads (decodeTemplate .smp 0x04000002000002000100080600000000) (.alb 0 2 0 2 1 4 3 0) = true := by decide +kernel
/-- R90: the copy opcodes end with 0x08. -/
theorem test_decode_reservedTemplate : reads (decodeTemplate .cpy 0x09000000000000000000000000000000) (.cpyx 0 0) = false := by decide +kernel

/-! ### Single steps, with results worked out by hand from the entries -/

def alu (i : Instr) (r : Nat) (v : Word) : Bool :=
  shows (exec i (one { st := .active, x := regs [(1, -7), (2, 2), (3, 0x8000000000000000), (4, 0x0123456789ABCDEF)] })) fun t =>
    decide (t.rx (BitVec.ofNat 6 r) = v)

theorem test_addi_wraps : alu (.addi 5 1 7) 5 0 = true := by decide +kernel
theorem test_addi_signExtends : alu (.addi 1 2 0x3FF) 1 1 = true := by decide +kernel
theorem test_x0_staysZero : alu (.addi 0 2 1) 0 0 = true := by decide +kernel
theorem test_div_truncates : alu (.div 5 1 2 false) 5 (-3) = true := by decide +kernel
theorem test_div_byZero : alu (.div 5 1 0 false) 5 0xFFFFFFFFFFFFFFFF = true := by decide +kernel
theorem test_rem_signOfDividend : alu (.rem 1 1 2 false) 1 (-1) = true := by decide +kernel
theorem test_mulh_signed : alu (.mulh 5 1 2 false) 5 (-1) = true := by decide +kernel
theorem test_mulhn_natural : alu (.mulhn 5 1 2 false) 5 1 = true := by decide +kernel
theorem test_sub_constant : alu (.sub 5 2 16 true) 5 3 = true := by decide +kernel
theorem test_cmplt_signed : alu (.cmplt 5 3 2 false) 5 1 = true := by decide +kernel
theorem test_cmpltn_natural : alu (.cmpltn 5 3 2 false) 5 0 = true := by decide +kernel
theorem test_bswp : alu (.bswp 5 4) 5 0xEFCDAB8967452301 = true := by decide +kernel
theorem test_shra_fills : alu (.shrai 5 3 63) 5 0xFFFFFFFFFFFFFFFF = true := by decide +kernel
theorem test_movk_keeps : alu (.movk 2 4 0xAAAA) 4 0x0123AAAA89ABCDEF = true := by decide +kernel
theorem test_absd_exact : alu (.absd 5 3 2 false) 5 0x8000000000000002 = true := by decide +kernel

/-- R74, R80: off8 counts accesses; the lower four bytes are stored, the least significant one at the lowest address. -/
theorem test_stw_lowHalf :
    shows (exec (.stw 0 5 6 0xFF) (one { st := .active, x := regs [(5, 0xAABBCCDD11223344), (6, ownVa 0x1004)] })) fun t =>
      t.peek (.cistern 0 0 0x1000) 1 == 0x44 && t.peek (.cistern 0 0 0x1003) 1 == 0x11 && t.peek (.cistern 0 0 0x1004) 1 == 0 := by
  decide +kernel
/-- R129: a misaligned access traps: cause 0x06 with the data address and the access size (R118). -/
theorem test_ldd_misaligned :
    shows (exec (.ldd 0 5 6 0) (one { st := .active, x := regs [(6, ownVa 0x1004)] })) fun t =>
      decide (t.me.trapCause = 0x06 ∧ t.me.trapVal = ownVa 0x1004 ∧ t.me.trapInfo = 8) := by decide +kernel
/-- R75: the distance counts words from the branch's own address. -/
theorem test_bnz_back :
    shows (exec (.bnz 4 0x3FFFD) (one { st := .active, pc := ownVa 0x10C, x := regs [(4, 1)] })) fun t => decide (t.me.pc = ownVa 0x100) := by
  decide +kernel
/-- R17: JAL writes the address after it to x63. -/
theorem test_jal_links :
    shows (exec (.jal 2) (one { st := .active, pc := ownVa 0x100 })) fun t => decide (t.me.pc = ownVa 0x108 ∧ t.rx 63 = ownVa 0x104) := by
  decide +kernel
/-- Log 1: the word placed where the boot thread fetches runs in the first step after reset. -/
theorem test_firstStep :
    shows (step (State.reset.withFetchWord 32 0x14051234)) fun t => (t.slot 0 768 0).rx 5 == 0x1234 && (t.slot 0 768 0).pc == ownVa 4 := by
  decide +kernel

end Sys2Proof.Tests
end

section
/-! SUPPORT. What a step that changes one core leaves alone, the bytes of rows and of cisterns, and what landings and
answers do to a core and to a slot, each said once. -/

namespace Sys2Proof.Machine
open Sys2Proof

/-! ### A step that changes one core -/

theorem State.OnlyCores.trans {s t u : State} (h : s.OnlyCores t) (g : t.OnlyCores u) : s.OnlyCores u := by
  obtain ⟨h1, h2⟩ := h
  obtain ⟨g1, g2⟩ := g
  exact ⟨by rw [g1, h1], fun d => by rw [g2 d, h2 d]⟩

theorem State.OnlyCores.cur {s t : State} (h : s.OnlyCores t) : t.cur = s.cur := by rw [h.1]

theorem State.OtherCoresAlone.trans {s t u : State} (hc : t.cur = s.cur) (h : s.OtherCoresAlone t) (g : t.OtherCoresAlone u) :
    s.OtherCoresAlone u := fun d c hn => (g d c (by rw [hc]; exact hn)).trans (h d c hn)

theorem State.onlyCores_modCore (s : State) (d c : Nat) (f : Core → Core) : s.OnlyCores (s.modCore d c f) := by
  refine ⟨rfl, fun e => ?_⟩
  by_cases h : e = d
  · subst h; simp [State.modCore, State.setCore, Die.setCore]
  · simp [State.modCore, State.setCore, State.die_modDie_other _ _ h]

theorem State.otherCoresAlone_upHere (s : State) (f : Core → Core) : s.OtherCoresAlone (s.upHere f) := fun _ _ h =>
  State.core_modCore_other s f (by omega)

/-- Nothing has changed but the core that the step concerns, which is k. -/
def State.CoreBecomes (s t : State) (k : Core) : Prop := s.OnlyCores t ∧ s.OtherCoresAlone t ∧ t.here = k

theorem State.coreBecomes_refl (s : State) : s.CoreBecomes s s.here := ⟨⟨rfl, fun _ => rfl⟩, fun _ _ _ => rfl, rfl⟩

theorem State.coreBecomes_upHere (s : State) (f : Core → Core) : s.CoreBecomes (s.upHere f) (f s.here) :=
  ⟨s.onlyCores_modCore _ _ f, s.otherCoresAlone_upHere f, s.here_upHere f⟩

theorem State.coreBecomes_upMe (s : State) (f : Slot → Slot) : s.CoreBecomes (s.upMe f) (s.here.modSlot s.cur.slot f) :=
  s.coreBecomes_upHere fun k => k.modSlot s.cur.slot f

theorem State.CoreBecomes.trans {s t u : State} {k k' : Core} (h : s.CoreBecomes t k) (g : t.CoreBecomes u k') :
    s.CoreBecomes u k' :=
  have ⟨h1, h2, _⟩ := h
  have ⟨g1, g2, g3⟩ := g
  ⟨h1.trans g1, State.OtherCoresAlone.trans h1.cur h2 g2, g3⟩

section
variable {s t : State} {k : Core} (h : s.CoreBecomes t k)
include h

theorem State.CoreBecomes.cur : t.cur = s.cur := h.1.cur

theorem State.CoreBecomes.clk : t.clk = s.clk := by rw [h.1.1]

theorem State.CoreBecomes.now : t.now = s.now := by rw [h.1.1]

theorem State.CoreBecomes.ids : t.ids = s.ids := by rw [h.1.1]

theorem State.CoreBecomes.here : t.here = k := h.2.2

theorem State.CoreBecomes.me : t.me = k.slot s.cur.slot := by
  rw [← h.here, ← h.cur]; rfl

theorem State.CoreBecomes.peek_own (a : Nat) :
    t.peek (.cistern s.cur.die s.cur.core a) 1 = (k.cistern.read a).toNat := by
  rw [← h.here, ← h.cur]
  exact Nat.add_zero _

theorem State.CoreBecomes.peek_other {m : Loc} (hm : ∀ a, m ≠ .cistern s.cur.die s.cur.core a) : t.peek m 1 = s.peek m 1 := by
  obtain ⟨⟨h1, h2⟩, h3, -⟩ := h
  cases m with
  | cistern d c o =>
    have hn : ¬ (d = s.cur.die ∧ c = s.cur.core) := fun ⟨hd, hc⟩ => hm o (by rw [hd, hc])
    rw [State.peek, h3 d c hn]; rfl
  | hbm d o => rw [State.peek, h2 d]; rfl
  | host a => rw [State.peek, h1]; rfl
  | sync d o => rw [State.peek, h2 d]; rfl
  | const o => rfl

/-- A core whose cistern reads as before leaves every byte of memory. -/
theorem State.CoreBecomes.sameMemory (hk : k.cistern = s.here.cistern) : s.SameMemory t := by
  intro m
  by_cases hm : ∃ a, m = .cistern s.cur.die s.cur.core a
  · obtain ⟨a, rfl⟩ := hm
    rw [h.peek_own, hk, s.coreBecomes_refl.peek_own]
  · exact h.peek_other fun a e => hm ⟨a, e⟩

end

/-- A step that answers with its core changed by f changes that core alone. -/
theorem State.becomesCore_upHere (s : State) (f : Core → Core) : s.BecomesCore (.next (s.upHere f)) (f s.here) :=
  ⟨_, rfl, s.coreBecomes_upHere f⟩

/-- A step that answers with its slot changed by f changes that slot alone. -/
theorem State.becomes_upMe (s : State) (f : Slot → Slot) (h : s.cur.slot < 4) : s.Becomes (.next (s.upMe f)) (f s.me) :=
  ⟨_, rfl, s.onlyMe_upMe f, s.me_upMe f h⟩

/-! ### Bytes of a row (R28) -/

theorem spreadBytes_lt (m : BitVec 128) (n : Nat) : spreadBytes m n < 2 ^ (8 * n) := by
  induction n with
  | zero => simp [spreadBytes]
  | succ n ih =>
    have h : 2 ^ (8 * (n + 1)) = 256 * 2 ^ (8 * n) := by rw [Nat.mul_succ, Nat.pow_add, Nat.mul_comm]
    rw [spreadBytes, h]
    split <;> omega

/-- The bits of a byte are on when the mask names it. -/
theorem testBit_spreadBytes (m : BitVec 128) (n j : Nat) :
    (spreadBytes m n).testBit j = (decide (j < 8 * n) && m.getLsbD (j / 8)) := by
  induction n with
  | zero => simp [spreadBytes]
  | succ n ih =>
    have h : spreadBytes m (n + 1) = 2 ^ (8 * n) * (if m.getLsbD n then 2 ^ 8 - 1 else 0) + spreadBytes m n := by
      rw [spreadBytes, Nat.add_comm]
      cases m.getLsbD n with
      | false => simp only [Bool.false_eq_true, if_false, Nat.mul_zero]
      | true => simp only [if_true, Nat.mul_comm (2 ^ (8 * n)), Nat.reducePow, Nat.reduceSub]
    rw [h, Nat.testBit_two_pow_mul_add _ (spreadBytes_lt m n), ih]
    by_cases hj : j < 8 * n
    · simp [hj, show j < 8 * (n + 1) by omega]
    · have hb : ∀ b : Bool, (if b then 2 ^ 8 - 1 else 0).testBit (j - 8 * n) = (b && decide (j - 8 * n < 8)) := by
        intro b
        cases b with
        | false => simp
        | true => rw [if_pos rfl, Nat.testBit_two_pow_sub_one, Bool.true_and]
      rw [if_neg hj, hb]
      by_cases hn : j < 8 * (n + 1)
      · simp [hn, show j / 8 = n by omega, show j - 8 * n < 8 by omega]
      · simp [hn, show ¬ j - 8 * n < 8 by omega]

theorem rowNat_byte (r : Row) (i : Nat) : rowNat r i 1 = (r.extractLsb' (8 * i) 8).toNat := by
  rw [rowNat, BitVec.extractLsb'_toNat, Nat.shiftRight_eq_div_pow]

/-- R28: a merged row takes the bytes that the mask names and keeps the others. -/
theorem rowNat_mergeRow (old new : Row) (m : BitVec 128) {i : Nat} (hi : i < 128) :
    rowNat (mergeRow old new m) i 1 = if m.getLsbD i then rowNat new i 1 else rowNat old i 1 := by
  rw [mergeRow]
  by_cases hm : m = BitVec.allOnes 128
  · rw [if_pos hm, hm, BitVec.getLsbD_allOnes, if_pos (by simpa using hi)]
  · have hk : ∀ j, j < 8 → (BitVec.ofNat 1024 (spreadBytes m 128)).getLsbD (8 * i + j) = m.getLsbD i := by
      intro j hj
      rw [BitVec.getLsbD_ofNat, testBit_spreadBytes, show (8 * i + j) / 8 = i by omega]
      simp [show 8 * i + j < 1024 by omega]
    rw [if_neg hm, rowNat_byte, rowNat_byte, rowNat_byte, ← apply_ite BitVec.toNat]
    congr 1
    apply BitVec.eq_of_getLsbD_eq
    intro j hj
    have hkj := hk j hj
    have hlt : 8 * i + j < 1024 := by omega
    simp only [BitVec.getLsbD_extractLsb', BitVec.getLsbD_or, BitVec.getLsbD_and, BitVec.getLsbD_not, hkj, hlt]
    cases m.getLsbD i <;> simp

/-! ### Bytes of a cistern -/

theorem Mem.readNat_lt (m : Mem) (a n : Nat) : m.readNat a n < 256 ^ n := by
  induction n generalizing a with
  | zero => simp [Mem.readNat]
  | succ n ih =>
    have := ih (a + 1)
    have := (m.read a).isLt
    rw [Mem.readNat, Nat.pow_succ]
    omega

/-- Byte i of a number read is the byte at that distance. -/
theorem Mem.readNat_byte (m : Mem) {n i : Nat} (a : Nat) (h : i < n) :
    m.readNat a n / 256 ^ i % 256 = (m.read (a + i)).toNat := by
  induction n generalizing a i with
  | zero => omega
  | succ n ih =>
    have hb := (m.read a).isLt
    cases i with
    | zero => simp only [Mem.readNat, Nat.pow_zero, Nat.div_one, Nat.add_zero]; omega
    | succ i =>
      rw [Mem.readNat, Nat.pow_succ', ← Nat.div_div_eq_div_mul,
        show ((m.read a).toNat + 256 * m.readNat (a + 1) n) / 256 = m.readNat (a + 1) n by omega, ih _ (by omega),
        show a + 1 + i = a + (i + 1) by omega]

theorem Mem.toNat_ofNat_readNat (m : Mem) (a : Nat) {n w : Nat} (h : w = 8 * n) :
    (BitVec.ofNat w (m.readNat a n)).toNat = m.readNat a n := by
  rw [BitVec.toNat_ofNat, Nat.mod_eq_of_lt]
  rw [h, Nat.pow_mul]
  exact m.readNat_lt a n

/-- A byte of a register-space row is a byte of the cistern (R20). -/
theorem Core.rowNat_row (k : Core) (n : Nat) {i : Nat} (h : i < 128) :
    rowNat (k.row n) i 1 = (k.cistern.read (k.part.rowByte n + i)).toNat := by
  rw [rowNat, Core.row, Mem.toNat_ofNat_readNat (n := 128) (w := 1024) _ _ rfl, Nat.pow_mul]
  exact Mem.readNat_byte _ _ h

/-- R25, R28: a row written takes the bytes that the mask names. -/
theorem Core.read_writeRow_same (k : Core) (n : Nat) (r : Row) (m : BitVec 128) {i : Nat} (h : i < 128) :
    ((k.writeRow n r m).cistern.read (k.part.rowByte n + i)).toNat =
      if m.getLsbD i then rowNat r i 1 else (k.cistern.read (k.part.rowByte n + i)).toNat := by
  have hm := rowNat_mergeRow (k.row n) r m h
  rw [Core.rowNat_row k n h] at hm
  rw [Core.writeRow, Mem.read_clean, Mem.read_writeNat_same _ _ _ h, BitVec.toNat_ofNat, ← hm, rowNat, Nat.pow_mul]

theorem Core.read_writeRow_other (k : Core) (n : Nat) (r : Row) (m : BitVec 128) {a : Nat}
    (h : ∀ i, i < 128 → a ≠ k.part.rowByte n + i) : (k.writeRow n r m).cistern.read a = k.cistern.read a := by
  rw [Core.writeRow, Mem.read_clean, Mem.read_writeNat_other]
  by_cases ha : a < k.part.rowByte n
  · exact .inl ha
  · refine .inr (Nat.le_of_not_lt fun hl => ?_)
    exact h (a - k.part.rowByte n) (by omega) (by omega)

/-- Bytes written in order: an address holds the last one given for it. -/
theorem Mem.read_writeCells (m : Mem) (cs : List (Nat × Byte)) (a : Nat) :
    (m.writeCells cs).read a = ((cs.reverse.find? fun x => x.1 == a).map (·.2)).getD (m.read a) := by
  induction cs generalizing m with
  | nil => rfl
  | cons c rest ih =>
    rw [Mem.writeCells, ih, List.reverse_cons, List.find?_append]
    cases rest.reverse.find? fun x => x.1 == a with
    | some x => rfl
    | none =>
      by_cases h : c.1 = a
      · subst h; simp
      · simp [h, Mem.read_write_other _ _ (Ne.symm h)]

theorem Mem.read_putCells (m : Mem) (u : Nat) (cs : List (Nat × Byte)) (a : Nat) :
    (m.putCells u cs).read a = (m.writeCells cs).read a := rfl

/-! ### What the parts of a landing do to a core -/

theorem Core.slot_modSlot_same (k : Core) {i : Nat} (f : Slot → Slot) (h : i < 4) : (k.modSlot i f).slot i = f (k.slot i) :=
  Core.slot_setSlot_same k _ h

theorem Core.slot_modSlot_other (k : Core) {i j : Nat} (f : Slot → Slot) (h : j ≠ i) : (k.modSlot i f).slot j = k.slot j :=
  Core.slot_setSlot_other k _ h

@[simp] theorem Core.writeRow_slot (k : Core) (n : Nat) (r : Row) (m : BitVec 128) (i : Nat) :
    (k.writeRow n r m).slot i = k.slot i := rfl
@[simp] theorem Core.cistern_writeRow_modSlot (k : Core) (i : Nat) (f : Slot → Slot) (n : Nat) (r : Row) (m : BitVec 128) :
    ((k.modSlot i f).writeRow n r m).cistern = (k.writeRow n r m).cistern := rfl

/-- A latch takes a result unless a change of slot has come between (R24). -/
def Core.latched (k : Core) (sw unit : Nat) (r : Row) : Core := if sw = k.sw then k.setLatch unit r else k

theorem Core.latched_eq (k : Core) (sw unit : Nat) (r : Row) :
    k.latched sw unit r = { k with latch := if sw = k.sw then k.latch.setIfInBounds unit (some r) else k.latch } := by
  unfold Core.latched; split <;> rfl

@[simp] theorem Core.latched_latch (k : Core) (sw unit : Nat) (r : Row) :
    (k.latched sw unit r).latch = if sw = k.sw then k.latch.setIfInBounds unit (some r) else k.latch := by
  rw [Core.latched_eq]

@[simp] theorem Core.latched_slot (k : Core) (sw unit : Nat) (r : Row) (i : Nat) : (k.latched sw unit r).slot i = k.slot i := by
  rw [Core.latched_eq]; rfl

@[simp] theorem Core.latched_cistern (k : Core) (sw unit : Nat) (r : Row) : (k.latched sw unit r).cistern = k.cistern := by
  rw [Core.latched_eq]

@[simp] theorem Core.latched_arrivals (k : Core) (sw unit : Nat) (r : Row) : (k.latched sw unit r).arrivals = k.arrivals := by
  rw [Core.latched_eq]

/-- A core that differs in slot i, its cistern and its latches alone. -/
def Core.Kept (k k' : Core) (i : Nat) : Prop :=
  k' = { k with slots := k'.slots, cistern := k'.cistern, latch := k'.latch } ∧ ∀ j, j ≠ i → k'.slot j = k.slot j

theorem Core.Kept.trans {k k' k'' : Core} {i : Nat} (h : k.Kept k' i) (g : k'.Kept k'' i) : k.Kept k'' i := by
  obtain ⟨h1, h2⟩ := h
  obtain ⟨g1, g2⟩ := g
  exact ⟨by rw [g1, h1], fun j hj => (g2 j hj).trans (h2 j hj)⟩

theorem Core.kept_modSlot (k : Core) (i : Nat) (f : Slot → Slot) : k.Kept (k.modSlot i f) i :=
  ⟨rfl, fun _ h => k.slot_modSlot_other f h⟩

theorem Core.kept_writeRow (k : Core) (n : Nat) (r : Row) (m : BitVec 128) (i : Nat) : k.Kept (k.writeRow n r m) i :=
  ⟨rfl, fun _ _ => rfl⟩

theorem Core.kept_latched (k : Core) (sw unit : Nat) (r : Row) (i : Nat) : k.Kept (k.latched sw unit r) i :=
  ⟨by rw [Core.latched_eq], fun j _ => k.latched_slot sw unit r j⟩

/-- A core that has taken stored bytes and noted their lines (R26, R230). -/
def Core.takeCells (k : Core) (clk : Nat) (cs : List (Nat × Byte)) : Core :=
  { k with cistern := k.cistern.putCells unitSram cs
           stored := (clk, (if k.stored.1 = clk then k.stored.2 else []) ++ cs.foldl (fun ls b => insertNat ls (b.1 / 64)) []) }

/-- A core on which a store has performed: its bytes, and the latch of an entry of the landing record (R26, R36). -/
def Core.takeStore (k : Core) (clk : Nat) (l : Landing) : Core :=
  if l.fromRec then (k.takeCells clk l.cells).latched l.sw l.unit l.data else k.takeCells clk l.cells

theorem Core.takeStore_slot (k : Core) (clk : Nat) (l : Landing) (i : Nat) : (k.takeStore clk l).slot i = k.slot i := by
  unfold Core.takeStore
  split
  · rw [Core.latched_slot]; rfl
  · rfl

theorem Core.takeStore_cistern (k : Core) (clk : Nat) (l : Landing) :
    (k.takeStore clk l).cistern = k.cistern.putCells unitSram l.cells := by
  unfold Core.takeStore
  split
  · rw [Core.latched_cistern]; rfl
  · rfl

theorem Core.takeStore_arrivals (k : Core) (clk : Nat) (l : Landing) : (k.takeStore clk l).arrivals = k.arrivals := by
  unfold Core.takeStore
  split
  · rw [Core.latched_arrivals]; rfl
  · rfl

theorem Core.takeStore_latch (k : Core) (clk : Nat) (l : Landing) :
    (k.takeStore clk l).latch = if l.fromRec ∧ l.sw = k.sw then k.latch.setIfInBounds l.unit (some l.data) else k.latch := by
  unfold Core.takeStore
  cases hr : l.fromRec with
  | false => simp [Core.takeCells]
  | true => simp [Core.takeCells]

/-- A core with another norm tracker. -/
def Core.withSums (k : Core) (m : Sampling) : Core := { k with smp := m }

@[simp] theorem Core.withSums_cistern (k : Core) (m : Sampling) : (k.withSums m).cistern = k.cistern := rfl

/-- R310: a write counted changes the norm tracker alone. -/
theorem Core.count_eq_withSums (k : Core) (n a b : Nat) (set : Nat → Bool) : ∃ m, k.count n a b set = k.withSums m := by
  unfold Core.count
  split
  · exact ⟨_, rfl⟩
  · exact ⟨k.smp, rfl⟩

/-- A core with an arrival of a VSTA on its way (R185). -/
def Core.withArrival (k : Core) (a : VArrival) : Core := { k with arrivals := k.arrivals ++ [a] }

/-! ### Answered results received by a slot (R31, R119, R128, R259, R263) -/

theorem Slot.wx_only_x (x : Slot) (r : BitVec 6) (v : Word) : x.wx r v = { x with x := (x.wx r v).x } := by
  unfold Slot.wx; split <;> rfl

/-- The pending results of a slot without one. -/
def Slot.pendWithout (x : Slot) (p : Pend) : List Pend := x.pend.filter fun q => q.id != p.id

/-- A value received in a register: it is written as a word writes it, and the mark of the register goes. -/
theorem Slot.receive_x (x : Slot) (p : Pend) (r : BitVec 6) (v : Word) (hd : p.dest = .x r.toNat) (hv : p.vals = [v])
    (hl : p.late = none) :
    x.receive p = { x.wx r v with pend := x.pendWithout p, lateX := x.lateX.filter fun e => e.1 != r.toNat } := by
  unfold Slot.receive Slot.wx
  simp only [hd, hv, hl, List.head?_cons, BitVec.ofNat_toNat, BitVec.setWidth_eq]
  split <;> rfl

/-- Two values received in two registers. -/
theorem Slot.receive_x2 (x : Slot) (p : Pend) (r q : BitVec 6) (v w : Word) (hd : p.dest = .x2 r.toNat q.toNat)
    (hv : p.vals = [v, w]) :
    x.receive p = { (x.wx r v).wx q w with
      pend := x.pendWithout p
      lateX := (x.lateX.filter fun e => e.1 != r.toNat).filter fun e => e.1 != q.toNat } := by
  unfold Slot.receive Slot.wx
  simp only [hd, hv, List.head?_cons, BitVec.ofNat_toNat, BitVec.setWidth_eq, List.getElem?_cons_succ,
    List.getElem?_cons_zero]
  split <;> split <;> rfl

/-- A late trap received without a value waits in the register, which keeps its value; in x0 it is lost. -/
theorem Slot.receive_x_late (x : Slot) (p : Pend) (n : Nat) (m : LateTrap) (hd : p.dest = .x n) (hv : p.vals = [])
    (hl : p.late = some m) :
    x.receive p = { x with
      pend := x.pendWithout p
      lateX := if n = 0 then x.lateX else (x.lateX.filter fun e => e.1 != n) ++ [(n, m)] } := by
  unfold Slot.receive
  simp only [hd, hv, hl, List.head?_nil]
  split <;> rfl

/-- A row received without a late trap only leaves the pending results. -/
theorem Slot.receive_row (x : Slot) (p : Pend) (n : Nat) (hd : p.dest = .row n) (hl : p.late = none) :
    x.receive p = { x with pend := x.pendWithout p } := by
  simp only [Slot.receive, hd, hl, Slot.pendWithout]

theorem Slot.proceed_eq (x : Slot) :
    x.proceed = { x with
      arrived := x.unmark.arrived, st := .ready, wait := .none, pc := alignPc (x.pc + 4), xl := [] } := by
  unfold Slot.proceed Slot.unmark; split <;> rfl

@[simp] theorem Slot.proceed_st (x : Slot) : x.proceed.st = .ready := rfl
@[simp] theorem Slot.proceed_wait (x : Slot) : x.proceed.wait = .none := rfl
@[simp] theorem Slot.proceed_pc (x : Slot) : x.proceed.pc = alignPc (x.pc + 4) := rfl
@[simp] theorem Slot.proceed_pend (x : Slot) : x.proceed.pend = x.pend := by rw [Slot.proceed_eq]
@[simp] theorem Slot.proceed_lateX (x : Slot) : x.proceed.lateX = x.lateX := by rw [Slot.proceed_eq]
@[simp] theorem Slot.proceed_rx (x : Slot) (r : BitVec 6) : x.proceed.rx r = x.rx r := by rw [Slot.proceed_eq]; rfl

/-- A slot whose result p has come to registers rs, which now hold v: the result and the marks of rs are gone (R259, R263). -/
def Slot.taken (x : Slot) (v : Vector Word 64) (p : Pend) (rs : List Nat) : Slot :=
  { x with x := v, pend := x.pendWithout p, lateX := x.lateX.filter fun e => !rs.contains e.1 }

theorem Slot.receive_x_taken (x : Slot) (p : Pend) (r : BitVec 6) (v : Word) (hd : p.dest = .x r.toNat) (hv : p.vals = [v])
    (hl : p.late = none) : x.receive p = x.taken (x.wx r v).x p [r.toNat] := by
  rw [x.receive_x p r v hd hv hl, Slot.wx_only_x, Slot.taken]
  simp only [List.contains_cons, List.contains_nil, Bool.or_false, bne]

theorem Slot.receive_x2_taken (x : Slot) (p : Pend) (r q : BitVec 6) (v w : Word) (hd : p.dest = .x2 r.toNat q.toNat)
    (hv : p.vals = [v, w]) : x.receive p = x.taken ((x.wx r v).wx q w).x p [r.toNat, q.toNat] := by
  rw [x.receive_x2 p r q v w hd hv, Slot.wx_only_x (x.wx r v), Slot.wx_only_x x, List.filter_filter, Slot.taken]
  simp only [List.contains_cons, List.contains_nil, Bool.or_false, bne, Bool.not_or, Bool.and_comm]

end Sys2Proof.Machine
end

section
/-! SUPPORT. Loads that land, register writes that have checks, and the change of slot. -/

namespace Sys2Proof.Machine
open Sys2Proof

/-! ### O7: an answered scalar load lands -/

/-- An answered load of a register lands by its slot's receiving it. -/
theorem exec_variableLoadLanding_x {s : State} {p : Pend} {n : Nat}
    (hp : s.findPend s.cur.die s.cur.core s.cur.slot s.cur.id = some p) (ha : p.answered = true) (hd : p.dest = .x n) :
    exec .variableLoadLanding s = .next (s.upMe fun x => x.receive p) := by
  show execVariableLoadLanding s = _
  have hh : s.here.rowHeld p = false := by simp [Core.rowHeld, hd]
  have hr : s.receiveRow p = s := by simp [State.receiveRow, hd]
  simp [execVariableLoadLanding, hp, ha, hh, hr]

/-- Settles O7: an answered load is received by its slot, and nothing else changes. -/
theorem scalarLoadLands : Obligations.ScalarLoadLands := by
  intro s p n v hs hn hp ha hd rest marks
  have hr : n = (BitVec.ofNat 6 n).toNat := by simp; omega
  have h0 : BitVec.ofNat 6 n = 0 ↔ n = 0 := by rw [BitVec.toNat_eq, ← hr]; rfl
  rw [exec_variableLoadLanding_x hp ha hd]
  refine ⟨fun hv hl => ?_, fun m hv hl => ?_⟩
  · have hx := Slot.receive_x s.me p (BitVec.ofNat 6 n) v (hr ▸ hd) hv hl
    have hme := s.me_upMe (fun x => x.receive p) hs
    refine ⟨_, rfl, s.onlyMe_upMe _, ?_, fun r hne => ?_, ?_⟩
    · simp only [State.rx, hme, hx]
      exact (Slot.rx_wx_same s.me (BitVec.ofNat 6 n) v).trans (by simp only [h0])
    · simp only [State.rx, hme, hx]
      exact Slot.rx_wx_other s.me v fun e => hne (by rw [e, ← hr])
    · rw [hme, hx, Slot.wx_only_x, ← hr]; rfl
  · have h := s.becomes_upMe (fun x => x.receive p) hs
    rwa [Slot.receive_x_late s.me p n m hd hv hl] at h

/-! ### O17: control-register writes that have checks of their own -/

theorem State.partOk_sizes {s : State} {p : Part} (h : p.regg < 4 ∨ p.regg + p.scrg + p.accg ≠ 256) : s.partOk p = false := by
  have hp : (decide (4 ≤ p.regg) && (p.regg + p.scrg + p.accg == 256)) = false := by
    rcases h with h | h
    · rw [decide_eq_false (Nat.not_le_of_lt h), Bool.false_and]
    · rw [beq_eq_false_iff_ne.mpr h, Bool.and_false]
  simp only [State.partOk, hp, Bool.false_and]

/-- R19: CORE.PART takes an accepted value. -/
theorem exec_corePartWrite_ok {s : State} (h : s.partOk (partOf s.cur.val) = true) :
    exec .corePartWrite s = .next (s.upHere fun k => { k with part := partOf s.cur.val }) := by
  show s.writeStep (s.writePart s.cur.val) = _
  rw [State.writePart, if_pos h]; rfl

theorem exec_corePartWrite_refused {s : State} (h : s.partOk (partOf s.cur.val) = false) :
    exec .corePartWrite s = s.raise 0x0B s.cur.val 0 := by
  show s.writeStep (s.writePart s.cur.val) = _
  rw [State.writePart, if_neg (by simp [h])]; rfl

/-- R22: the writes of the eight view registers set them. -/
theorem Slot.writeReg_view (x : Slot) {n : Nat} (v : Word) (h : n < 8) :
    x.writeReg (0x008 + n) v = { x with vw := x.vw.setIfInBounds n v } := by
  rw [Slot.writeReg, if_neg (by omega), if_pos (by omega), Nat.add_sub_cancel_left]

/-- R22: a view register is written, or the view fault refuses it. -/
theorem exec_viewRegisterWrite (s : State) (h : s.cur.id < 8) :
    exec .viewRegisterWrite s =
      if vwOk s.cur.val ((s.here.part.regg + s.here.part.accg) * 32) then
        .next (s.upMe fun x => { x with vw := x.vw.setIfInBounds s.cur.id (s.cur.val &&& vwMask) })
      else s.raise 0x0A (BitVec.ofNat 64 s.cur.id) 0 := by
  show s.writeStep (s.writeView (s.cur.id % 8) s.cur.val) = _
  rw [Nat.mod_eq_of_lt h]
  simp only [State.writeView, Slot.writeReg_view _ _ h]
  split <;> rfl

/-- R109: INH of SEQ.STAT is written; it stays 1 while the landing record has entries. -/
theorem exec_seqStatWrite (s : State) :
    exec .seqStatWrite s =
      .next (s.upMe fun x => { x with inh := s.cur.val.getLsbD 1 || (x.inh && decide (x.lrecCount ≠ 0)) }) := by
  simp only [ne_eq, decide_not]; rfl

/-- R111: LS.DEPTH is written, or the loop-stack overflow refuses it. -/
theorem exec_lsDepthWrite (s : State) :
    exec .lsDepthWrite s =
      if s.cur.val.toNat % 8 = 7 then s.raise 0x10 0 0
      else .next (s.upMe fun x => { x with lsDepth := s.cur.val.toNat % 8 }) := by
  show s.writeStep (s.writeLsDepth s.cur.val) = _
  simp only [State.writeLsDepth]
  split <;> rfl

theorem sgRefused_iff (v : Word) :
    sgRefused v = true ↔ 6 ≤ v.toNat / 2 ^ 13 % 8 ∨ v.toNat / 2 ^ 13 % 8 = 5 ∧ v.toNat % 2 ^ 12 = 0 := by
  rw [sgRefused, Bool.or_eq_true, decide_eq_true_iff, Bool.and_eq_true, beq_iff_eq, beq_iff_eq]; rfl

/-- R287: the writes of the scope-table entries from 5 on set them. -/
theorem Core.writeReg_scope (k : Core) {n : Nat} (v : Word) (h5 : 5 ≤ n) (h : n < 32) :
    k.writeReg (0x360 + n) v 0 = { k with sg := k.sg.setIfInBounds n (sgOf v) } := by
  rw [Core.writeReg, if_neg (by omega), if_neg (by omega), if_neg (by omega), if_neg (by omega), if_neg (by omega),
    if_neg (by omega), if_neg (by omega), if_neg (by omega), if_neg (by omega), if_pos (by omega), Nat.add_sub_cancel_left]

/-- R287: entries 0 to 4 of the scope table stay; another is written, or the scope fault refuses it. -/
theorem exec_scopeSgWrite (s : State) (h : s.cur.id < 32) :
    exec .scopeSgWrite s =
      if s.cur.id < 5 then .next s
      else if sgRefused s.cur.val then s.raise 0x16 (BitVec.ofNat 64 s.cur.id) 0
      else .next (s.upHere fun k => { k with sg := k.sg.setIfInBounds s.cur.id (sgOf s.cur.val) }) := by
  show s.writeStep (s.writeSg (s.cur.id % 32) s.cur.val) = _
  rw [Nat.mod_eq_of_lt h, State.writeSg]
  split
  · rfl
  · simp only [Core.writeReg_scope _ _ (show 5 ≤ s.cur.id by omega) h]
    split <;> rfl

/-- R429: NF.CBASE is written, or the access fault refuses it. -/
theorem exec_nfCbaseWrite (s : State) :
    exec .nfCbaseWrite s =
      if s.cur.val.toNat / 2 ^ 10 % 2 ^ 20 < 0x1000 then s.raise 0x08 s.cur.val 1
      else .next (s.upHere fun k => { k with nfOff := s.cur.val.extractLsb' 10 20 }) := by
  show s.writeStep (s.writeNfCbase s.cur.val) = _
  simp only [State.writeNfCbase]
  split <;> rfl

/-- Settles O17: each write by the equation of its step, in the case that its clause names. -/
theorem checkedRegisterWrites : Obligations.CheckedRegisterWrites := by
  rintro s v n hs rfl rfl k x p
  refine ⟨fun h => ?_, fun h => ?_, fun hn h => ?_, fun hn h => ?_, ?_, fun h => ?_, fun h => ?_, fun hn => ?_,
    fun h5 hn h6 h0 => ?_, fun h5 hn h => ?_, fun h => ?_, fun h => ?_⟩
  · rw [exec_corePartWrite_ok h]
    exact s.becomesCore_upHere _
  · exact exec_corePartWrite_refused (State.partOk_sizes h)
  · rw [exec_viewRegisterWrite s hn, if_pos h]
    exact s.becomes_upMe _ hs
  · rw [exec_viewRegisterWrite s hn, if_neg (by simpa using h)]
  · rw [exec_seqStatWrite]
    exact s.becomes_upMe _ hs
  · rw [exec_lsDepthWrite, if_neg (by omega)]
    exact s.becomes_upMe _ hs
  · rw [exec_lsDepthWrite, if_pos h]
  · rw [exec_scopeSgWrite s (by omega), if_pos hn]
  · rw [exec_scopeSgWrite s hn, if_neg (by omega), if_neg (by rw [sgRefused_iff]; omega)]
    exact s.becomesCore_upHere _
  · rw [exec_scopeSgWrite s hn, if_neg (by omega), if_pos ((sgRefused_iff _).mpr h)]
  · rw [exec_nfCbaseWrite, if_neg (by omega)]
    exact s.becomesCore_upHere _
  · rw [exec_nfCbaseWrite, if_pos h]

/-! ### O20: the switch to the next READY slot -/

/-- R16: the slot j places after the next one in turn is READY and no save has stopped it. -/
def Core.turnReady (k : Core) (j : Nat) : Prop :=
  (k.slot ((k.last + 1 + j) % 4)).st = .ready ∧ (k.slot ((k.last + 1 + j) % 4)).stopped = false

theorem Core.nextReady_eq_find (k : Core) :
    k.nextReady = ((List.range 4).find? fun j =>
      (k.slot ((k.last + 1 + j) % 4)).st == .ready && !(k.slot ((k.last + 1 + j) % 4)).stopped).map
        fun j => (k.last + 1 + j) % 4 := by
  have h : [1, 2, 3, 4] = (List.range 4).map (1 + ·) := rfl
  rw [Core.nextReady, h, List.findSome?_map, List.find?_eq_findSome?_guard, List.map_findSome?]
  congr 1
  funext j
  simp only [Function.comp, Option.guard, ← Nat.add_assoc]
  split <;> rfl

theorem Core.nextReady_eq_some {k : Core} {i : Nat} (hi : i < 4) (h : k.turnReady i) (hf : ∀ j, j < i → ¬ k.turnReady j) :
    k.nextReady = some ((k.last + 1 + i) % 4) := by
  simp only [Core.turnReady] at h hf
  have : ((List.range 4).find? fun j =>
      (k.slot ((k.last + 1 + j) % 4)).st == .ready && !(k.slot ((k.last + 1 + j) % 4)).stopped) = some i := by
    rw [List.find?_range_eq_some]
    exact ⟨by simp [h], List.mem_range.mpr hi, fun j hj => by simpa [Decidable.imp_iff_not_or] using hf j hj⟩
  rw [Core.nextReady_eq_find, this, Option.map_some]

theorem Core.nextReady_eq_none {k : Core} (h : ∀ j, j < 4 → ¬ k.turnReady j) : k.nextReady = none := by
  simp only [Core.turnReady] at h
  rw [Core.nextReady_eq_find, Option.map_eq_none_iff, List.find?_range_eq_none]
  exact fun j hj => by simpa [Decidable.imp_iff_not_or] using h j hj

theorem Core.active_eq_none {k : Core} (h : ∀ j, j < 4 → (k.slot j).st ≠ .active) : k.active = none := by
  rw [Core.active, List.find?_range_eq_none]
  exact fun j hj => by simpa using h j hj

theorem Core.active_isSome {k : Core} {j : Nat} (hj : j < 4) (h : (k.slot j).st = .active) : k.active.isSome := by
  simp only [Core.active, List.find?_isSome]
  exact ⟨j, List.mem_range.mpr hj, by simp [h]⟩

theorem Core.switchSlot_of_active {k : Core} {clk j : Nat} (hj : j < 4) (h : (k.slot j).st = .active) :
    k.switchSlot clk = k := by
  obtain ⟨i, hi⟩ := Option.isSome_iff_exists.mp (Core.active_isSome hj h)
  simp only [Core.switchSlot, hi]

theorem Core.switchSlot_of_none_ready {k : Core} {clk : Nat} (h : ∀ j, j < 4 → ¬ k.turnReady j) : k.switchSlot clk = k := by
  rw [Core.switchSlot, Core.nextReady_eq_none h]
  split <;> simp_all

theorem Core.switchSlot_of_ready {k : Core} {clk n : Nat} (ha : k.active = none) (hn : k.nextReady = some n) :
    k.switchSlot clk =
      if n = k.last then k.modSlot n fun x => { x with st := .active }
      else { (k.modSlot n fun x => { x with st := .active }) with
        last := n, switching := some (n, clk + 1), sw := k.sw + 1, latch := Vector.replicate 8 none } := by
  simp only [Core.switchSlot, ha, hn]

/-- Settles O20: the switch is a search from the slot that was ACTIVE last, and the cases of what it finds. -/
theorem slotSwitching : Obligations.SlotSwitching := by
  intro s i k ready n slots
  have hb : s.BecomesCore (exec .slotSwitch s) (k.switchSlot s.clk) := s.becomesCore_upHere fun k => k.switchSlot s.clk
  refine ⟨fun _ ha hi hr hf => ?_, fun h => ?_⟩
  · have hs := Core.switchSlot_of_ready (clk := s.clk) (Core.active_eq_none ha) (Core.nextReady_eq_some (k := k) hi hr hf)
    refine ⟨fun hl => ?_, fun hl => ?_⟩
    · rwa [hs, if_pos hl] at hb
    · rwa [hs, if_neg hl] at hb
  · have hs : k.switchSlot s.clk = k := h.elim (fun ⟨_, hj, ha⟩ => Core.switchSlot_of_active hj ha)
      Core.switchSlot_of_none_ready
    rwa [hs] at hb

end Sys2Proof.Machine
end

section
/-! SUPPORT. Results that land. -/

namespace Sys2Proof.Machine
open Sys2Proof

/-! ### O40: results land -/

/-- Nothing has changed but the core that the step concerns: of it, the slot that the step concerns, the cistern and the latches. -/
def State.CoreKept (s t : State) : Prop :=
  s.OnlyCores t ∧ s.OtherCoresAlone t ∧
    t.here = { s.here with slots := t.here.slots, cistern := t.here.cistern, latch := t.here.latch } ∧
    ∀ j, j ≠ s.cur.slot → t.here.slot j = s.here.slot j

/-- R25, R28: row n has taken the bytes of the data that the mask names, and every other byte of memory is as before. -/
def State.RowTaken (s t : State) (n : Nat) (data : Row) (bytes : BitVec 128) : Prop :=
  let a := s.here.part.rowByte n
  (∀ i, i < 128 → t.peek (.cistern s.cur.die s.cur.core (a + i)) 1 =
    if bytes.getLsbD i then rowNat data i 1 else s.peek (.cistern s.cur.die s.cur.core (a + i)) 1) ∧
  (∀ m, (∀ i, i < 128 → m ≠ .cistern s.cur.die s.cur.core (a + i)) → t.peek m 1 = s.peek m 1)

theorem State.CoreBecomes.coreKept {s t : State} {k : Core} (h : s.CoreBecomes t k) (hk : s.here.Kept k s.cur.slot) :
    s.CoreKept t := by
  obtain ⟨h1, h2, rfl⟩ := h
  exact ⟨h1, h2, hk⟩

theorem State.CoreBecomes.rowTaken {s t : State} {k : Core} {n : Nat} {data : Row} {bytes : BitVec 128}
    (h : s.CoreBecomes t k) (hk : k.cistern = (s.here.writeRow n data bytes).cistern) : s.RowTaken t n data bytes := by
  refine ⟨fun i hi => ?_, fun m hm => ?_⟩
  · rw [h.peek_own, hk, Core.read_writeRow_same _ _ _ _ hi, s.coreBecomes_refl.peek_own]
  · by_cases ho : ∃ a, m = .cistern s.cur.die s.cur.core a
    · obtain ⟨a, rfl⟩ := ho
      rw [h.peek_own, hk, Core.read_writeRow_other _ _ _ _ fun i hi e => hm i hi (by rw [e]), s.coreBecomes_refl.peek_own]
    · exact h.peek_other fun a e => ho ⟨a, e⟩

/-- A slot without a landing. -/
def Slot.without (x : Slot) (l : Landing) : Slot := { x with lands := x.lands.filter fun y => y.id != l.id }

/-- The landing with the number of the step is l, and is due. -/
def State.Finds (s : State) (l : Landing) : Prop :=
  s.me.lands.find? (fun l => l.id == s.cur.id && l.due ≤ s.clk) = some l

/-- The landing that a step finds leaves its slot and performs. -/
theorem State.land_of_found {s : State} {l : Landing} (h : s.Finds l) :
    s.land = (s.upMe fun x => x.without l).performLanding s.cur.die s.cur.core l := by
  rw [State.land, h]; rfl

theorem State.performLanding_row {s : State} {l : Landing} (h : l.kind = .row) :
    s.performLanding s.cur.die s.cur.core l =
      s.upHere fun k => (k.writeRow l.row l.data l.bytes).latched l.sw l.unit l.data := by
  simp only [State.performLanding, h]; rfl

theorem State.performLanding_latch {s : State} {l : Landing} (h : l.kind = .latch) :
    s.performLanding s.cur.die s.cur.core l = s.upHere fun k => k.latched l.sw l.unit l.data := by
  simp only [State.performLanding, h]; rfl

/-- R26: a store over no poisoned unit writes its bytes into the cistern and notes its lines. -/
theorem State.storeCells_eq {s : State} (i : Nat) (pc : Word) (cs : List (Nat × Byte)) (h : s.here.cistern.poison = []) :
    s.storeCells s.cur.die s.cur.core i pc cs = s.upHere fun k => k.takeCells s.clk cs := by
  have hb : ∀ k : Core, k.cistern.poison = [] → (k.takeCells s.clk cs).cistern.cellsBad unitSram cs = false := by
    intro k hk
    simp [Core.takeCells, Mem.cellsBad, Mem.putCells, hk]
  have hh := s.here_upHere fun k => k.takeCells s.clk cs
  rw [State.storeCells]
  refine if_neg ?_
  show ¬ ((s.upHere fun k => k.takeCells s.clk cs).here.cistern.cellsBad unitSram cs) = true
  rw [hh, hb _ h]
  decide

/-- R310: counting a write changes the norm tracker of its core alone. -/
theorem State.coreBecomes_countCells (s : State) (n : Nat) (cs : List (Nat × Byte)) :
    ∃ m, s.CoreBecomes (s.countCells n s.cur.die s.cur.core cs) (s.here.withSums m) := by
  cases cs with
  | nil => exact ⟨s.here.smp, s.coreBecomes_refl⟩
  | cons c rest =>
    obtain ⟨m, hm⟩ := s.here.count_eq_withSums n _ _ _
    exact ⟨m, hm ▸ s.coreBecomes_upHere _⟩

/-- The machine when a store has performed and its arrival has still to start. -/
def State.storeDone (s : State) (l : Landing) : State :=
  let t := s.storeCells s.cur.die s.cur.core s.cur.slot l.pc l.cells
  (if l.fromRec then t.modCore s.cur.die s.cur.core fun k => k.latched l.sw l.unit l.data else t).countCells 2
    s.cur.die s.cur.core l.cells

/-- R26, R36, R310: a store over no poisoned unit changes its core: its bytes, its latch and the norm tracker. -/
theorem State.coreBecomes_storeDone {s : State} (l : Landing) (hp : s.here.cistern.poison = []) :
    ∃ m, s.CoreBecomes (s.storeDone l) ((s.here.takeStore s.clk l).withSums m) := by
  have h1 := s.coreBecomes_upHere fun k => k.takeCells s.clk l.cells
  have h2 : s.CoreBecomes (if l.fromRec then (s.upHere fun k => k.takeCells s.clk l.cells).modCore s.cur.die s.cur.core
      fun k => k.latched l.sw l.unit l.data else s.upHere fun k => k.takeCells s.clk l.cells) (s.here.takeStore s.clk l) := by
    rw [Core.takeStore]
    split
    · have h := h1.trans (State.coreBecomes_upHere _ fun k => k.latched l.sw l.unit l.data)
      rwa [h1.here] at h
    · exact h1
  obtain ⟨m, h3⟩ := State.coreBecomes_countCells _ 2 l.cells
  have h := h2.trans h3
  rw [h2.here, h2.cur, ← State.storeCells_eq s.cur.slot l.pc l.cells hp] at h
  exact ⟨m, h⟩

theorem State.performLanding_store {s : State} {l : Landing} (hk : l.kind = .store) (hc : (s.storeDone l).cur = s.cur) :
    s.performLanding s.cur.die s.cur.core l =
      (l.arrival.map fun a => (s.storeDone l).startArrival s.cur.die s.cur.core s.cur.slot a.1 a.2 l.cls []).getD
        (s.storeDone l) := by
  rw [show s.cur.slot = (s.storeDone l).cur.slot by rw [hc]]
  simp only [State.performLanding, hk]
  cases l.arrival <;> rfl

/-- R25, R28: a landing of a row. -/
theorem State.land_row {s : State} {l : Landing} (h : s.Finds l) (hk : l.kind = .row) :
    s.CoreBecomes s.land
      (((s.here.modSlot s.cur.slot fun x => x.without l).writeRow l.row l.data l.bytes).latched l.sw l.unit l.data) := by
  have h1 := s.coreBecomes_upMe fun x => x.without l
  have h2 := h1.trans (State.coreBecomes_upHere _ fun k => (k.writeRow l.row l.data l.bytes).latched l.sw l.unit l.data)
  rw [h1.here] at h2
  rw [State.land_of_found h]
  exact State.performLanding_row (s := s.upMe fun x => x.without l) hk ▸ h2

/-- R24, R25: a landing of a latch. -/
theorem State.land_latch {s : State} {l : Landing} (h : s.Finds l) (hk : l.kind = .latch) :
    s.CoreBecomes s.land ((s.here.modSlot s.cur.slot fun x => x.without l).latched l.sw l.unit l.data) := by
  have h1 := s.coreBecomes_upMe fun x => x.without l
  have h2 := h1.trans (State.coreBecomes_upHere _ fun k => k.latched l.sw l.unit l.data)
  rw [h1.here] at h2
  rw [State.land_of_found h]
  exact State.performLanding_latch (s := s.upMe fun x => x.without l) hk ▸ h2

/-- R26: a landing of a store over no poisoned unit: its core, and the arrival that then starts. -/
theorem State.land_store {s : State} {l : Landing} (h : s.Finds l) (hk : l.kind = .store) (hp : s.here.cistern.poison = []) :
    ∃ u m, s.CoreBecomes u (((s.here.modSlot s.cur.slot fun x => x.without l).takeStore s.clk l).withSums m) ∧
      s.land = (l.arrival.map fun a => u.startArrival u.cur.die u.cur.core u.cur.slot a.1 a.2 l.cls []).getD u := by
  have h1 := s.coreBecomes_upMe fun x => x.without l
  obtain ⟨m, h2⟩ := State.coreBecomes_storeDone l (s := s.upMe fun x => x.without l) (by rw [h1.here]; exact hp)
  rw [h1.here, h1.clk] at h2
  have hu := h1.trans h2
  refine ⟨_, m, hu, ?_⟩
  rw [State.land_of_found h, hu.cur]
  exact State.performLanding_store (s := s.upMe fun x => x.without l) hk h2.cur

/-- A row landing keeps to its core, and its row and its latch take the result. -/
theorem State.land_row_effect {s : State} {l : Landing} (hs : s.cur.slot < 4) (h : s.Finds l) (hk : l.kind = .row) :
    s.CoreKept s.land ∧ s.land.me = s.me.without l ∧ s.RowTaken s.land l.row l.data l.bytes ∧
      s.land.here.latch = (if l.sw = s.here.sw then s.here.latch.setIfInBounds l.unit (some l.data) else s.here.latch) := by
  have hb := State.land_row h hk
  refine ⟨hb.coreKept ?_, ?_, hb.rowTaken ?_, ?_⟩
  · exact ((Core.kept_modSlot _ _ _).trans (Core.kept_writeRow _ _ _ _ _)).trans (Core.kept_latched _ _ _ _ _)
  · rw [hb.me, Core.latched_slot, Core.writeRow_slot, Core.slot_modSlot_same _ _ hs]; rfl
  · rw [Core.latched_cistern, Core.cistern_writeRow_modSlot]
  · rw [hb.here, Core.latched_latch]; rfl

/-- A latch landing keeps to its core, and the latch takes the result. -/
theorem State.land_latch_effect {s : State} {l : Landing} (hs : s.cur.slot < 4) (h : s.Finds l) (hk : l.kind = .latch) :
    s.CoreKept s.land ∧ s.land.me = s.me.without l ∧ s.SameMemory s.land ∧
      s.land.here.latch = (if l.sw = s.here.sw then s.here.latch.setIfInBounds l.unit (some l.data) else s.here.latch) := by
  have hb := State.land_latch h hk
  refine ⟨hb.coreKept ((Core.kept_modSlot _ _ _).trans (Core.kept_latched _ _ _ _ _)), ?_, hb.sameMemory ?_, ?_⟩
  · rw [hb.me, Core.latched_slot, Core.slot_modSlot_same _ _ hs]; rfl
  · rw [Core.latched_cistern, Core.modSlot_cistern]
  · rw [hb.here, Core.latched_latch]; rfl

/-- R185: an arrival that starts leaves the memories and the slots; it is noted by its core and is a step to come. -/
theorem State.startArrival_effect {u t : State} {i : Nat} {p : Word} {n c : Nat}
    (ht : t = u.startArrival u.cur.die u.cur.core i p n c []) :
    u.SameMemory t ∧ t.me = u.me ∧ t.here.latch = u.here.latch ∧
      t.here.arrivals = u.here.arrivals ++ [{ id := u.ids, slot := i, addr := p, n := n, cls := c, gates := [] }] ∧
      t.now = u.now ++ [{ who := { die := u.cur.die, core := u.cur.core, slot := i, id := u.ids }, op := .vstaArrival }] := by
  have hb := u.coreBecomes_upHere fun k =>
    k.withArrival { id := u.ids, slot := i, addr := p, n := n, cls := c, gates := [] }
  have he : t = ((u.upHere fun k => k.withArrival { id := u.ids, slot := i, addr := p, n := n, cls := c, gates := [] }).newId.soon
      { who := { die := u.cur.die, core := u.cur.core, slot := i, id := u.ids }, op := .vstaArrival }) := ht
  have hl := congrArg Core.latch hb.here
  have ha := congrArg Core.arrivals hb.here
  subst he
  exact ⟨hb.sameMemory rfl, hb.me, hl, ha, rfl⟩

/-- A store landing writes its bytes, and the latch of an entry of the landing record; its arrival, if it has one, starts. -/
theorem State.land_store_effect {s : State} {l : Landing} (hs : s.cur.slot < 4) (h : s.Finds l) (hk : l.kind = .store)
    (hp : s.here.cistern.poison = []) :
    s.land.me = s.me.without l ∧
      (∀ a, s.land.peek (.cistern s.cur.die s.cur.core a) 1 =
        ((l.cells.reverse.find? fun x => x.1 == a).map (·.2.toNat)).getD (s.peek (.cistern s.cur.die s.cur.core a) 1)) ∧
      (∀ m, (∀ a, m ≠ .cistern s.cur.die s.cur.core a) → s.land.peek m 1 = s.peek m 1) ∧
      s.land.here.latch =
        (if l.fromRec ∧ l.sw = s.here.sw then s.here.latch.setIfInBounds l.unit (some l.data) else s.here.latch) ∧
      (l.arrival = none → s.land.now = s.now ∧ s.land.here.arrivals = s.here.arrivals) ∧
      (∀ p n, l.arrival = some (p, n) →
        s.land.here.arrivals = s.here.arrivals ++
          [{ id := s.ids, slot := s.cur.slot, addr := p, n := n, cls := l.cls, gates := [] }] ∧
        s.land.now = s.now ++
          [{ who := { die := s.cur.die, core := s.cur.core, slot := s.cur.slot, id := s.ids }, op := .vstaArrival }]) := by
  obtain ⟨u, m, hu, he⟩ := State.land_store h hk hp
  have hme : u.me = s.me.without l := by
    rw [hu.me]
    exact (Core.takeStore_slot _ _ _ _).trans (Core.slot_modSlot_same _ _ hs)
  have hown : ∀ a, u.peek (.cistern s.cur.die s.cur.core a) 1 =
      ((l.cells.reverse.find? fun x => x.1 == a).map (·.2.toNat)).getD (s.peek (.cistern s.cur.die s.cur.core a) 1) := by
    intro a
    rw [hu.peek_own, s.coreBecomes_refl.peek_own, Core.withSums_cistern, Core.takeStore_cistern, Core.modSlot_cistern,
      Mem.read_putCells, Mem.read_writeCells]
    cases l.cells.reverse.find? fun x => x.1 == a <;> rfl
  have hlatch : u.here.latch =
      (if l.fromRec ∧ l.sw = s.here.sw then s.here.latch.setIfInBounds l.unit (some l.data) else s.here.latch) := by
    rw [hu.here]
    exact Core.takeStore_latch _ _ _
  have harr : u.here.arrivals = s.here.arrivals := by
    rw [hu.here]
    exact Core.takeStore_arrivals _ _ _
  cases ha : l.arrival with
  | none =>
    have ht : s.land = u := by rw [he, ha]; rfl
    rw [ht]
    exact ⟨hme, hown, fun m hm => hu.peek_other hm, hlatch, fun _ => ⟨hu.now, harr⟩, fun p n e => nomatch e⟩
  | some a =>
    obtain ⟨p, n⟩ := a
    have ht : s.land = u.startArrival u.cur.die u.cur.core u.cur.slot p n l.cls [] := by rw [he, ha]; rfl
    obtain ⟨hmem, hme', hlatch', harr', hnow⟩ := State.startArrival_effect ht
    rw [harr, hu.ids, hu.cur] at harr'
    rw [hu.now, hu.ids, hu.cur] at hnow
    refine ⟨hme'.trans hme, fun b => (hmem _).trans (hown b), fun m hm => (hmem m).trans (hu.peek_other hm),
      hlatch'.trans hlatch, (fun e => nomatch e), fun p' n' e => ?_⟩
    cases e
    exact ⟨harr', hnow⟩

/-- R31: an answered row that nothing holds back lands: its row and the latch of the mem unit take the loaded bytes. -/
theorem exec_variableLoadLanding_row {s : State} {p : Pend} {n : Nat}
    (hp : s.findPend s.cur.die s.cur.core s.cur.slot s.cur.id = some p) (ha : p.answered = true) (hd : p.dest = .row n)
    (hl : p.late = none) (hh : s.here.rowHeld p = false) :
    ∃ t, exec .variableLoadLanding s = .next t ∧
      s.CoreBecomes t (((s.here.writeRow n p.data p.bytes).latched p.sw 7 (mergeRow 0 p.data p.bytes)).modSlot s.cur.slot
        fun x => x.receive p) := by
  have hr : s.receiveRow p = s.upHere fun k => (k.writeRow n p.data p.bytes).latched p.sw 7 (mergeRow 0 p.data p.bytes) := by
    simp only [State.receiveRow, hd, hl]; rfl
  have h1 := s.coreBecomes_upHere fun k => (k.writeRow n p.data p.bytes).latched p.sw 7 (mergeRow 0 p.data p.bytes)
  have h2 := h1.trans (State.coreBecomes_upMe _ fun x => x.receive p)
  rw [h1.here, h1.cur] at h2
  refine ⟨_, ?_, h2⟩
  show execVariableLoadLanding s = _
  simp [execVariableLoadLanding, hp, ha, hh, hr]

/-- A merged row over 0 holds the bytes that the mask names, and 0. -/
theorem rowNat_mergeRow_zero (new : Row) (m : BitVec 128) {i : Nat} (hi : i < 128) :
    rowNat (mergeRow 0 new m) i 1 = if m.getLsbD i then rowNat new i 1 else 0 := by
  have h0 : rowNat 0 i 1 = 0 := by rw [rowNat_byte]; simp
  rw [rowNat_mergeRow 0 new m hi, h0]

/-- R259: what an answer that lands in registers rs leaves of its slot: the result and the marks of rs go; a slot that waited
for it goes on. -/
def State.AnswerTaken (s t : State) (p : Pend) (rs : List Nat) : Prop :=
  t.me.pend = s.me.pend.filter (fun q => q.id != p.id) ∧ t.me.lateX = s.me.lateX.filter (fun e => !rs.contains e.1) ∧
  (s.me.wait = .answer s.cur.id → t.me.st = .ready ∧ t.me.wait = .none ∧ t.me.pc = alignPc (s.me.pc + 4)) ∧
  (s.me.wait ≠ .answer s.cur.id → t.me = { s.me with x := t.me.x, pend := t.me.pend, lateX := t.me.lateX })

/-- R259: an answer received in registers lands, in a slot that waits for it or not. -/
theorem exec_syncResultLands {s : State} {p : Pend} {rs : List Nat} {v : Vector Word 64} (hs : s.cur.slot < 4)
    (hp : s.findPend s.cur.die s.cur.core s.cur.slot s.cur.id = some p) (ha : p.answered = true)
    (hr : s.me.receive p = s.me.taken v p rs) :
    ∃ t, exec .syncResultLands s = .next t ∧ s.OnlyMe t ∧ (∀ r, t.rx r = (s.me.taken v p rs).rx r) ∧ s.AnswerTaken t p rs := by
  have h1 : (s.upMe fun x => x.receive p).me = s.me.taken v p rs := (s.me_upMe _ hs).trans hr
  have ho := s.onlyMe_upMe fun x => x.receive p
  have hw1 : (s.me.taken v p rs).wait = s.me.wait := rfl
  have he : exec .syncResultLands s =
      if s.me.wait = .answer s.cur.id then .next ((s.upMe fun x => x.receive p).upMe Slot.proceed)
      else .next (s.upMe fun x => x.receive p) := by
    show execSyncResultLands s = _
    simp [execSyncResultLands, hp, ha, h1, hw1]
  rw [he]
  by_cases hw : s.me.wait = .answer s.cur.id
  · have h2 : ((s.upMe fun x => x.receive p).upMe Slot.proceed).me = (s.me.taken v p rs).proceed :=
      (State.me_upMe (s.upMe fun x => x.receive p) Slot.proceed hs).trans (congrArg Slot.proceed h1)
    rw [if_pos hw]
    refine ⟨_, rfl, ho.trans (State.onlyMe_upMe _ _), fun r => ?_, ?_, ?_, fun _ => ⟨?_, ?_, ?_⟩, fun hn => absurd hw hn⟩
    · rw [State.rx, h2, Slot.proceed_rx]
    · rw [h2, Slot.proceed_pend]; rfl
    · rw [h2, Slot.proceed_lateX]; rfl
    · rw [h2, Slot.proceed_st]
    · rw [h2, Slot.proceed_wait]
    · rw [h2, Slot.proceed_pc]; rfl
  · rw [if_neg hw]
    refine ⟨_, rfl, ho, fun r => by rw [State.rx, h1], ?_, ?_, fun hn => absurd hn hw, fun _ => ?_⟩
    all_goals rw [h1]; rfl

/-- R25, R26, R36: the three landing steps are one. -/
theorem exec_of_landingOp {op : Instr} (h : landingOp op = true) (s : State) : exec op s = .next s.land := by
  simp only [landingOp, Bool.or_eq_true, beq_iff_eq] at h
  rcases h with (rfl | rfl) | rfl <;> rfl

/-- R153: an entry of a template store after the oldest of its loads has landed; poisoned data leave its 16 bytes (log 86). -/
def TemplateEntry.landed (e : TemplateEntry) (t : Template) (bad : Option Word) (rest : List (Template × Option Word)) :
    TemplateEntry :=
  match bad with
  | some a => { e with poisoned := some a, loading := rest }
  | none => { t := t, poisoned := none, loading := rest }

theorem exec_templateLoadLands {s : State} {t : Template} {bad : Option Word} {rest : List (Template × Option Word)}
    (h : (s.here.tmpl.get {} s.cur.n).loading = (t, bad) :: rest) :
    exec .templateLoadLands s = .next (s.upHere fun k =>
      { k with tmpl := k.tmpl.set s.cur.n ((s.here.tmpl.get {} s.cur.n).landed t bad rest) }) := by
  show execTemplateLoadLands s = _
  simp only [execTemplateLoadLands, h]
  cases bad <;> rfl

/-- Settles O40: the landings of a row, of a latch and of a store, and the landings of loads and answers. -/
theorem landings : Obligations.Landings := by
  intro s hs d c rowTakes coreKept
  refine ⟨fun l hl _ => ⟨fun op hop => ?_, fun op hop hk hp => ?_⟩, fun p n hp ha hd hn hh => ?_,
    fun e t0 rest he => ⟨fun hload => ?_, fun a hload => ?_⟩,
    fun p hp ha hn => ⟨fun r v hd hv => ?_, fun r q v w hd hv hne => ?_⟩⟩
  · have hops : ∀ op ∈ [Instr.resultLanding, .landingRecordEntryLands], landingOp op = true := by decide
    have hex := exec_of_landingOp (hops op hop) s
    exact ⟨fun hk => ⟨_, hex, State.land_row_effect hs hl hk⟩, fun hk => ⟨_, hex, State.land_latch_effect hs hl hk⟩⟩
  · have hops : ∀ op ∈ [Instr.cisternStorePerform, .landingRecordEntryLands], landingOp op = true := by decide
    have hex := exec_of_landingOp (hops op hop) s
    obtain ⟨hme, hown, hrest⟩ := State.land_store_effect hs hl hk hp
    refine ⟨_, hex, hme, fun a => ?_, hrest⟩
    rw [hown a]
    cases l.cells.reverse.find? fun x => x.1 == a <;> rfl
  · obtain ⟨t, ht, hb⟩ := exec_variableLoadLanding_row hp ha hd hn hh
    refine ⟨t, ht, hb.coreKept ?_, hb.rowTaken ?_, ?_, _, fun i hi => rowNat_mergeRow_zero p.data p.bytes hi, ?_⟩
    · exact ((Core.kept_writeRow _ _ _ _ _).trans (Core.kept_latched _ _ _ _ _)).trans (Core.kept_modSlot _ _ _)
    · rw [Core.modSlot_cistern, Core.latched_cistern]
    · rw [hb.me, Core.slot_modSlot_same _ _ hs, Core.latched_slot, Core.writeRow_slot, Slot.receive_row _ p n hd hn]; rfl
    · rw [hb.here, Core.modSlot_latch, Core.latched_latch]; rfl
  · subst he
    rw [exec_templateLoadLands hload]
    exact s.becomesCore_upHere _
  · subst he
    rw [exec_templateLoadLands hload]
    exact s.becomesCore_upHere _
  · obtain ⟨t, ht, ho, hrx, hg⟩ := exec_syncResultLands hs hp ha (s.me.receive_x_taken p r v hd hv hn)
    have hrx : ∀ q, t.rx q = (s.me.wx r v).rx q := hrx
    exact ⟨t, ht, ho, (hrx r).trans (Slot.rx_wx_same s.me r v), fun q hq => (hrx q).trans (Slot.rx_wx_other s.me v hq), hg⟩
  · obtain ⟨t, ht, ho, hrx, hg⟩ := exec_syncResultLands hs hp ha (s.me.receive_x2_taken p r q v w hd hv)
    have hrx : ∀ k, t.rx k = ((s.me.wx r v).wx q w).rx k := hrx
    exact ⟨t, ht, ho, (hrx r).trans ((Slot.rx_wx_other _ w hne).trans (Slot.rx_wx_same s.me r v)),
      (hrx q).trans (Slot.rx_wx_same _ q w),
      fun k hk hq => (hrx k).trans ((Slot.rx_wx_other _ w hq).trans (Slot.rx_wx_other s.me v hk)), hg⟩

end Sys2Proof.Machine
end

section
/-! SUPPORT. The step of the machine, and the state after reset. -/

namespace Sys2Proof.Machine
open Sys2Proof

/-! ### O56: a step runs the instruction at the program counter -/

/-- Log 10: in the issue of a clk, a step with nothing waiting is the part of the core whose turn it is. -/
theorem step_issue {s : State} {d c : Nat} {rest : List (Nat × Nat)} (hp : s.powered = true) (hn : s.now = [])
    (hi : s.phase = .issue) (ht : s.turn = (d, c) :: rest) : step s = ({ s with turn := rest } : State).issueCore exec d c := by
  obtain ⟨⟩ := s
  cases hp; cases hn; cases hi; cases ht
  rfl

theorem State.issueCore_of_issues {s : State} {run : Instr → State → Out} {d c j : Nat}
    (h : (s.core d c).issues s.clk = some j) :
    s.issueCore run d c = (s.as { die := d, core := c, slot := j }).issueWord run := by
  rw [State.issueCore, h]

/-- R16: a core that issues nothing in a clk only passes its turn. -/
theorem State.issueCore_of_none {s : State} {run : Instr → State → Out} {d c : Nat}
    (h : (s.core d c).issues s.clk = none) : s.issueCore run d c = .next s := by
  rw [State.issueCore, h]

/-- The landing record of an armed slot has no room beside the landings under way (R29, R36). -/
def Slot.recordFull (x : Slot) : Prop := x.armed = true ∧ 8 < x.lands.length + x.lrec.length

theorem State.issueWord_of_full {s : State} (run : Instr → State → Out) (h : s.me.recordFull) :
    s.issueWord run = .next s := by
  obtain ⟨ha, hl⟩ := h
  simp [State.issueWord, Slot.outstanding, ha, hl]

/-- R70: a word that faults by its privilege or by its template, without any wait. -/
def State.wordFaults (s : State) (i : Instr) : Prop :=
  (privilegedOf i = true ∧ s.me.priv = false) ∨ s.templateFaulted i = true

/-- What an attempt does with an instruction: it runs, after what its hazard asks for. -/
def State.issueInstr (s : State) (run : Instr → State → Out) (i : Instr) : Out :=
  if (privilegedOf i && !s.me.priv) || s.templateFaulted i then run i s
  else
    match s.hazard i with
    | .clear =>
      match run i s with
      | .next s' => .next ((s'.as s.cur).issued s.me.armed)
      | o => o
    | .blocked => s.hold
    | .late t => .next (s.lateTrap t)
    | .held => .next s

/-- What an attempt does with the word that it has fetched. -/
def State.issueFetched (s : State) (run : Instr → State → Out) (w : InstrWord) : Out :=
  match decodeWord w with
  | .error _ => s.raise causeIllegal (zext64 w) 0
  | .ok i => s.issueInstr run i

/-- An attempt that is not held for its record fetches its word, and decodes and runs it. -/
theorem State.issueWord_of_room {s : State} (run : Instr → State → Out) (h : ¬ s.me.recordFull) :
    s.issueWord run = s.fetch.run s (s.issueFetched run) := by
  have hc : (s.me.armed && decide (8 < s.me.outstanding)) = false := by
    cases ha : s.me.armed with
    | false => rfl
    | true => simpa [Slot.recordFull, Slot.outstanding, ha] using h
  rw [State.issueWord, hc]
  rfl

section
variable {s : State} {run : Instr → State → Out} {w : InstrWord} {i : Instr}

theorem State.issueFetched_of_error {r : Reject} (h : decodeWord w = .error r) :
    s.issueFetched run w = s.raise causeIllegal (zext64 w) 0 := by
  rw [State.issueFetched, h]

theorem State.issueFetched_of_ok (h : decodeWord w = .ok i) : s.issueFetched run w = s.issueInstr run i := by
  rw [State.issueFetched, h]

theorem State.issueInstr_of_faults (h : s.wordFaults i) : s.issueInstr run i = run i s :=
  if_pos (by simpa [State.wordFaults] using h)

variable (h : ¬ s.wordFaults i)
include h

theorem State.issueInstr_of_clear {u : State} (hz : s.hazard i = .clear) (hu : run i s = .next u) :
    s.issueInstr run i = .next ((u.as s.cur).issued s.me.armed) := by
  rw [State.issueInstr, if_neg (by simpa [State.wordFaults] using h), hz, hu]

theorem State.issueInstr_of_blocked (hz : s.hazard i = .blocked) : s.issueInstr run i = s.hold := by
  rw [State.issueInstr, if_neg (by simpa [State.wordFaults] using h), hz]

theorem State.issueInstr_of_held (hz : s.hazard i = .held) : s.issueInstr run i = .next s := by
  rw [State.issueInstr, if_neg (by simpa [State.wordFaults] using h), hz]

theorem State.issueInstr_of_late {y : LateTrap} (hz : s.hazard i = .late y) : s.issueInstr run i = .next (s.lateTrap y) := by
  rw [State.issueInstr, if_neg (by simpa [State.wordFaults] using h), hz]

end

theorem State.fetch_of_loc {s : State} {l : Loc} (h : s.fetchLoc = .ok l) :
    s.fetch = if s.bad l 4 then .trap causeFetch s.me.pc 3 else .ok (BitVec.ofNat 32 (s.peek l 4)) := by
  rw [State.fetch, h]; rfl

theorem State.fetch_of_trap {s : State} {n : Nat} {v i : Word} (h : s.fetchLoc = .trap n v i) : s.fetch = .trap n v i := by
  rw [State.fetch, h]; rfl

theorem State.fetch_of_walk {s : State} {va : Nat} (h : s.fetchLoc = .walk va) : s.fetch = .walk va := by
  rw [State.fetch, h]; rfl

/-- After a word of a slot that waits for nothing: its attempts and its translations are over. -/
theorem State.issued_me {t : State} (hw : t.me.wait = .none) (hn : ∀ e ∈ t.now, e.who.trig = none) (hs : t.cur.slot < 4) :
    (t.issued false).me = { t.me with attempts := 0, xl := [] } := by
  have hu : ∀ f, ((t.upMe f).now.any fun e => e.who.trig.isSome) = false := by
    intro f
    rw [State.upMe_now, List.any_eq_false]
    exact fun e he => by simp [hn e he]
  have hi : t.issued false = (t.upMe fun x => { x with attempts := 0 }).upMe fun x => { x with xl := [] } := by
    simp only [State.issued, hw, hu, Bool.false_eq_true, if_false]
  rw [hi, State.me_upMe (t.upMe _) _ hs, State.me_upMe t _ hs]

/-- R438: a program counter in the own cistern fetches there. -/
theorem State.fetchLoc_own {s : State} (hr : s.me.pc = BitVec.ofNat 64 (0xFFFF000000000000 + s.me.pc.toNat % 2 ^ 40))
    (ho : s.me.pc.toNat % 2 ^ 40 < 2 ^ 20) :
    s.fetchLoc = .ok (.cistern s.cur.die s.cur.core (s.me.pc.toNat % 2 ^ 40)) := by
  have hv : s.me.pc.toNat = 0xFFFF000000000000 + s.me.pc.toNat % 2 ^ 40 := by
    have := congrArg BitVec.toNat hr
    rw [BitVec.toNat_ofNat] at this
    omega
  have hreg : region s.me.pc = .own (s.me.pc.toNat % 2 ^ 40) := by
    have h1 : s.me.pc.toNat / 2 ^ 56 ≠ 0 := by omega
    have h2 : s.me.pc.toNat / 2 ^ 48 = 0xFFFF := by omega
    have h3 : s.me.pc.toNat / 2 ^ 40 % 256 = 0 := by omega
    simp only [region, if_neg h1, if_pos h2, h3, if_pos ho]
  simp only [State.fetchLoc, hreg]

/-- Settles O56: a step is the first waiting step or the attempt of a core, and an attempt is fetch, decode and run. -/
theorem stepRunsTheDecodedInstruction : Obligations.StepRunsTheDecodedInstruction := by
  intro s hp
  refine ⟨fun e rest hn => ?_, fun e rest hn hl hd => ?_, fun d c rest hn hi ht hj =>
    (step_issue hp hn hi ht).trans (State.issueCore_of_none hj),
    fun d c rest j hn hi ht hj => ?_, fun t hw hn hs => t.issued_me hw hn hs, fun _ hr ho => s.fetchLoc_own hr ho⟩
  · simp [step, hp, hn]
  · simp [step, hp, hn, hl, hd]
  · intro t alone full
    have hs : step s = t.issueWord exec := (step_issue hp hn hi ht).trans (State.issueCore_of_issues hj)
    rw [hs]
    refine ⟨fun h => t.issueWord_of_full exec h, fun h => ?_⟩
    rw [t.issueWord_of_room exec h]
    refine ⟨fun n v i hf => by rw [t.fetch_of_trap hf]; rfl, fun va hf => by rw [t.fetch_of_walk hf]; rfl, fun l hf => ?_⟩
    rw [t.fetch_of_loc hf]
    refine ⟨fun hb => by rw [if_pos hb]; rfl, fun hb => ?_⟩
    rw [if_neg (by simp [hb])]
    intro w
    rw [show (Ans.ok (BitVec.ofNat 32 (t.peek l 4))).run t (t.issueFetched exec) = t.issueFetched exec w from rfl]
    refine ⟨fun r hd => State.issueFetched_of_error hd, fun i hd => ?_⟩
    rw [State.issueFetched_of_ok hd]
    refine ⟨State.issueInstr_of_faults, fun hp ht => ?_⟩
    have hf : ¬ t.wordFaults i := by simp only [State.wordFaults, hp, ht]; decide
    exact ⟨fun hz u hu => State.issueInstr_of_clear hf hz hu, State.issueInstr_of_blocked hf, State.issueInstr_of_held hf,
      fun y => State.issueInstr_of_late hf⟩

/-! ### O58: the state after reset -/

theorem vget_replicate {α : Type} {n : Nat} (a d : α) {i : Nat} (h : i < n) : vget (Vector.replicate n a) i d = a := by
  simp [vget, h]

/-- Every die reads as a die at reset, listed or not. -/
theorem State.die_reset (d : Nat) : State.reset.die d = Die.reset := by
  simp only [State.die, State.reset, Tab.get, assocGet]
  split
  · rfl
  · split <;> rfl

/-- Every core reads as a core at reset; the command core has the boot thread. -/
theorem State.core_reset (d c : Nat) :
    State.reset.core d c = { slots := if c = 768 then (Vector.replicate 4 {}).set 0 Slot.boot else Vector.replicate 4 {} } := by
  simp only [State.core, State.die_reset, Die.core, Die.reset, Tab.get, assocGet]
  by_cases h : c = 768
  · simp only [h, if_true]; rfl
  · simp only [h, Ne.symm h, if_false]

/-- Every slot reads as a free one, but for the boot thread of a command core. -/
theorem State.slot_reset (d c : Nat) {i : Nat} (hi : i < 4) :
    (State.reset.core d c).slot i = if c = 768 ∧ i = 0 then Slot.boot else {} := by
  rw [State.core_reset]
  by_cases hc : c = 768
  · by_cases h0 : i = 0
    · subst h0; simp [Core.slot, vget, hc]
    · simp [Core.slot, vget, hc, h0, hi, Ne.symm h0]
  · simp [Core.slot, vget, hc, hi]

/-- A slot whose registers read 0. -/
theorem Slot.rx_of_blank {x : Slot} (h : x.x = Vector.replicate 64 0) (r : BitVec 6) : x.rx r = 0 := by
  rw [Slot.rx, h, vget_replicate _ _ r.isLt, ite_self]

theorem State.memoriesWf_reset : State.reset.memoriesWf :=
  ⟨rfl, fun d => by rw [State.die_reset]; exact ⟨rfl, rfl, fun c => by rw [State.core_reset]; rfl⟩⟩

theorem State.peek_reset {l : Loc} (h : ∀ o, l ≠ .const o) : State.reset.peek l 1 = 0 := by
  cases l with
  | cistern d c o => rw [State.peek, State.core_reset]; rfl
  | hbm d o => rw [State.peek, State.die_reset]; rfl
  | host a => rfl
  | sync d o => rw [State.peek, State.die_reset]; rfl
  | const o => exact absurd rfl (h o)

/-- The scope table at reset: entries 0 to 4 hold their own KIND, the others KIND 0 (R287). -/
theorem Core.sg_reset {i : Nat} (h : i < 32) :
    vget (Vector.ofFn fun j : Fin 32 => (if j.val < 5 then j.val else 0, 0)) i (0, 0) = (if i < 5 then i else 0, 0) := by
  simp [vget, h]

/-- The slots at reset: no register, record or loop; FREE but for the boot thread, which is ACTIVE and privileged. -/
theorem State.slot_reset_values (d c : Nat) {i : Nat} (hi : i < 4) :
    let x := (State.reset.core d c).slot i
    (∀ r, x.rx r = 0) ∧ x.inh = false ∧ x.lsDepth = 0 ∧ x.lrec = [] ∧ (∀ v, v < 8 → vget x.vw v 0 = 0) ∧
      (¬ (c = 768 ∧ i = 0) → x.st = .free) ∧
      (c = 768 → i = 0 → x.st = .active ∧ x.priv = true ∧ x.pc = 0xFFFF000000000000) := by
  rw [State.slot_reset d c hi]
  by_cases h : c = 768 ∧ i = 0
  · rw [if_pos h]
    exact ⟨Slot.rx_of_blank rfl, rfl, rfl, rfl, fun v hv => vget_replicate _ _ hv, fun hn => absurd h hn,
      fun _ _ => ⟨rfl, rfl, rfl⟩⟩
  · rw [if_neg h]
    exact ⟨Slot.rx_of_blank rfl, rfl, rfl, rfl, fun v hv => vget_replicate _ _ hv, fun _ => rfl,
      fun hc h0 => absurd ⟨hc, h0⟩ h⟩

/-- Settles O58: every die, core and slot reads as at reset, whether the tables list it or not. -/
theorem resetValues : Obligations.ResetValues := by
  refine ⟨rfl, rfl, rfl, rfl, State.memoriesWf_reset, fun l => State.peek_reset, fun d => ?_, fun d c => ?_⟩
  · rw [State.die_reset]
    exact ⟨rfl, rfl, rfl, rfl, rfl, rfl, rfl, rfl, rfl, rfl, rfl, rfl, rfl, rfl, rfl, rfl,
      fun i hi => by rw [show Die.reset.links = Vector.replicate 6 {} from rfl, vget_replicate _ _ hi]⟩
  · have hslot := fun i (hi : i < 4) => State.slot_reset_values d c hi
    have hcb : wordN ((0x1000 : BitVec 20).toNat * 2 ^ 10) = 0x400000 := by decide
    generalize hk : State.reset.core d c = k at hslot
    rw [State.core_reset] at hk
    subst hk
    exact ⟨rfl, rfl, rfl, rfl, rfl, rfl, hcb, rfl, rfl, rfl, rfl, rfl, rfl, rfl, rfl, rfl, rfl, fun _ => rfl,
      fun i hi => Core.sg_reset hi, fun i hi => congrArg Window.valid (vget_replicate _ _ hi), hslot⟩

end Sys2Proof.Machine
end
